-- ==== Sys2Proof/Word.lean ====
section
/-! DEFINITION. The word types of the UW-4816 (00_scope.md, section 0.5): bytes, 32-bit counts, 64 flags of a line, the 64 bytes of a line. -/

namespace Sys2Proof

/-- One byte of a message or of a line. -/
abbrev Byte := BitVec 8

/-- A 32-bit unsigned count that wraps: ticks, accept sequences, record and checkpoint sequence numbers (section 0.5). -/
abbrev Word32 := BitVec 32

/-- 64 flags: one per byte of a line (byte masks, valid masks) or one per line of a frame (poison masks). -/
abbrev Flags64 := BitVec 64

/-- The 64 bytes of one line; byte b of the line is element b. -/
abbrev LineData := Vector Byte 64

end Sys2Proof
end

