-- ==== Sys2Proof/Machine/Bytes.lean ====
section
/-! DEFINITION. Little-endian fields of bytes (R182; the layouts of Machine/MetaFormat.lean). -/

namespace Sys2Proof.Machine

/-- The value of bytes sent least significant byte first. -/
def leValue : List Byte → Nat
  | [] => 0
  | b :: rest => b.toNat + 256 * leValue rest

/-- The n bytes of v, least significant byte first. -/
def leBytes : Nat → Nat → List Byte
  | 0, _ => []
  | n + 1, v => BitVec.ofNat 8 v :: leBytes n (v / 256)

/-- The value of the first n bytes. -/
def takeField (n : Nat) (bs : List Byte) : Nat := leValue (bs.take n)

@[simp] theorem leBytes_length (n v : Nat) : (leBytes n v).length = n := by
  induction n generalizing v with
  | zero => rfl
  | succ n ih => simp [leBytes, ih]

theorem leValue_leBytes (n v : Nat) : leValue (leBytes n v) = v % 256 ^ n := by
  induction n generalizing v with
  | zero => simp [leBytes, leValue, Nat.mod_one]
  | succ n ih => simp [leBytes, leValue, ih, Nat.pow_succ, Nat.mul_comm, Nat.mod_mul]

theorem leValue_lt (n : Nat) : ∀ bs : List Byte, bs.length ≤ n → leValue bs < 256 ^ n := by
  induction n with
  | zero => intro bs h; simp [List.length_eq_zero_iff.mp (Nat.le_zero.mp h), leValue]
  | succ n ih =>
    intro bs h
    match bs with
    | [] => simp [leValue]
    | b :: rest =>
      have := ih rest (by simpa using h)
      have := b.isLt
      simp only [leValue, Nat.pow_succ]
      omega

theorem takeField_append (n v : Nat) (rest : List Byte) (h : v < 256 ^ n) : takeField n (leBytes n v ++ rest) = v := by
  rw [takeField, List.take_left' (leBytes_length n v), leValue_leBytes, Nat.mod_eq_of_lt h]

theorem takeField_lt (n : Nat) (bs : List Byte) : takeField n bs < 256 ^ n := leValue_lt n _ (by simp)

theorem drop_leBytes_append (n v : Nat) (rest : List Byte) : (leBytes n v ++ rest).drop n = rest :=
  List.drop_left' (leBytes_length n v)

end Sys2Proof.Machine
end

