-- ==== Sys2Proof/Syntax.lean ====
section
/-! DEFINITION. The commands of the block: one constructor of Instr per row of spec/opcode_table.json, and the types of their operands. -/

namespace Sys2Proof

/-! ### What metadata lines of the medium hold (ch1 R2, ch7 R120, R130, R132)

The layouts of these lines are the part's own (R120, R131), so a line is described here by its named fields; Machine/MetaFormat.lean lays it out in 64 bytes (log entry 6). -/

/-- Role of a physical frame (Table 1.5). -/
inductive Role where
  | metadata | mapped | spare | target | retired
  deriving DecidableEq, Repr

/-- Fate carried by a MOVE_COMMIT record (Table 7.1); `invalid` stands for any other code a record read back may hold. -/
inductive Fate where
  | spare | retired | invalid
  deriving DecidableEq, Repr

/-- One record of the frame table (Table 1.9). -/
structure FrameRecord where
  role : Role
  owner : Option Nat
  wear : Nat
  corrected : Nat
  wanted : Bool
  overdue : Bool
  deriving DecidableEq, Repr

/-- The geometry record of line 0 of frame 0 (R2), less its check. -/
structure GeometryRecord where
  nP : Nat
  spares : Nat
  retireWear : Nat
  formatCount : Nat
  deriving DecidableEq, Repr

/-- A journal record's kind and payload (Table 7.1); `unknown` is a kind that names none of the table (R120). -/
inductive JournalRecord where
  | moveCommit (logical newFrame oldFrame : Nat) (fate : Fate) (poison : Flags64)
  | spareRetire (frame : Nat)
  | poisonSet (line : Nat)
  | poisonClear (line : Nat)
  | fenceSet (value : Nat)
  | shutdown
  | opened
  | unknown (kind : Nat)
  deriving DecidableEq, Repr

/-- The fields of a checkpoint header line (R132), less the check over them. -/
structure CheckpointHeader where
  seq : Word32
  posSeq : Word32
  posSlot : Nat
  clean : Bool
  imageCheck : Word32
  deriving DecidableEq, Repr

/-- One item of a checkpoint image (R130). The order of items over the image lines is the part's own (log entry 7). -/
inductive ImageItem where
  | fence (value : Nat)
  | uncleanCount (value : Nat)
  | entry (frame : Nat) (poison : Flags64)
  | frame (record : FrameRecord)
  deriving DecidableEq, Repr

/-- The content of a metadata line. `invalid` is content whose check holds for none of the kinds:
the invalid-check pattern and the invalid header of R147, and whatever else the medium may deliver. -/
inductive MetaLine where
  | geometry (record : GeometryRecord) (checkHolds : Bool)
  | record (seq : Word32) (record : JournalRecord) (checkHolds : Bool)
  | header (header : CheckpointHeader) (checkHolds : Bool)
  | image (items : List ImageItem)
  | invalid
  deriving DecidableEq, Repr

/-! ### What the medium answers (ch4 R63 to R65) -/

/-- The identity of an attempt (R63): in-flight place, the place's grant count, first attempt or retry. -/
structure AttemptId where
  place : Fin 8
  grant : Word32
  retry : Bool
  deriving DecidableEq, Repr

/-- What the medium reports for a MEDIA WRITE (R63): stored, or failed to program. -/
inductive WriteReport where
  | stored | programFail
  deriving DecidableEq, Repr

/-- The stored bits a MEDIA READ's completion carries (R63): the 64 data bytes and the check bytes, as the medium
returned them. The layout of the check bytes is the part's own (log entry 9). -/
structure Stored where
  data : LineData
  check : List Byte
  deriving DecidableEq, Repr

/-- A completion of one of FORMAT's operations (Table 8.4): the read of step 1, or a write. -/
inductive FormatCompletion where
  | read (stored : Stored)
  | write (report : WriteReport)
  deriving DecidableEq, Repr

/-! ### The commands -/

/-- One constructor per row of spec/opcode_table.json; LAWS.json maps each to its mnemonic.
Management commands carry the request's tag byte and its parameter bytes (Table 11.1). -/
inductive Instr where
  | resetAssert
  | resetRelease (sizeStraps : BitVec 6) (addrStraps : BitVec 2)
  | holdUpAssert
  | holdUpDeassert
  | sweepBoundary
  | drainAgeReached (line : Nat)
  | stampAgeClamp (line : Nat)
  | hostRead (tag : BitVec 5) (line : BitVec 26)
  | hostWrite (tag : BitVec 5) (line : BitVec 26) (mask : Flags64) (data : LineData)
  | hostPersist (tag : BitVec 5) (line : BitVec 26)
  | hostUnknownKind (tag : BitVec 5) (line : BitVec 26)
  | waitQueueTake
  | persistTake
  | persistDone
  | flushDone
  | drainIssue
  | mediaGrant
  | attemptTimeout (place : Fin 8)
  | staleCompletionDiscard (id : AttemptId)
  | hostReadReturn (id : AttemptId) (stored : Stored)
  | fillReadComplete (id : AttemptId) (stored : Stored)
  | drainWriteComplete (id : AttemptId) (report : WriteReport)
  | copyReadComplete (id : AttemptId) (stored : Stored)
  | copyWriteComplete (id : AttemptId) (report : WriteReport)
  | recordWriteComplete (id : AttemptId) (report : WriteReport)
  | checkpointLineComplete (id : AttemptId) (report : WriteReport)
  | formatOperationComplete (id : AttemptId) (completion : FormatCompletion)
  | recoveryReadComplete (id : AttemptId) (stored : Stored)
  | migrationTake
  | quiesceEnd
  | migrationSwitch
  | lateCopyStart
  | abortComplete
  | recordWriteIssue
  | creatorJoinQueue
  | checkpointImageFix
  | drainLockEmptyingEnd
  | closingEmptyingEnd
  | closingCheckpointStart
  | responseRead (bytesRead : Nat)
  | unknownCommand (code tag : Byte) (params : List Byte)
  | getStatus (tag : Byte) (params : List Byte)
  | getHealth (tag : Byte) (params : List Byte)
  | getIdentity (tag : Byte) (params : List Byte)
  | readMapEntry (tag : Byte) (params : List Byte)
  | readFrameRecord (tag : Byte) (params : List Byte)
  | readPoolEntry (tag : Byte) (params : List Byte)
  | getSetting (tag : Byte) (params : List Byte)
  | stageSetting (tag : Byte) (params : List Byte)
  | commitSettings (tag : Byte) (params : List Byte)
  | discardStaged (tag : Byte) (params : List Byte)
  | setFenceVolatile (tag : Byte) (params : List Byte)
  | setFencePersistent (tag : Byte) (params : List Byte)
  | flush (tag : Byte) (params : List Byte)
  | requestMigration (tag : Byte) (params : List Byte)
  | abortMigration (tag : Byte) (params : List Byte)
  | checkpointNow (tag : Byte) (params : List Byte)
  | prepareOff (tag : Byte) (params : List Byte)
  | resume (tag : Byte) (params : List Byte)
  | restart (tag : Byte) (params : List Byte)
  | format (tag : Byte) (params : List Byte)
  | readEvents (tag : Byte) (params : List Byte)
  | clearEvents (tag : Byte) (params : List Byte)
  | setEventEnable (tag : Byte) (params : List Byte)
  | requestNotWellFormed (bytes : List Byte)
  deriving DecidableEq, Repr

end Sys2Proof
end

