-- ==== Sys2Proof/Machine/Ecc.lean ====
section
/-! DEFINITION. The error-correcting code of the Media Port (R64, R71): what every code the part may use satisfies, the code in use as a free constant, the encoder and the decoder. -/

namespace Sys2Proof

/-! ### Bits in error (R64: data and check bits counted together) -/

/-- The number of bit positions in which two bytes differ. -/
def byteErrors (a b : Byte) : Nat := (List.range 8).countP fun i => a.getLsbD i != b.getLsbD i

/-- The first n check bytes of a completion; a check byte it does not carry counts as 0. -/
def Stored.checkBytes (w : Stored) (n : Nat) : List Byte := (List.range n).map fun i => w.check[i]?.getD 0#8

/-- The number of bit positions, data and check bits together, in which stored bits differ from data and n check bytes. -/
def bitErrors (n : Nat) (data : LineData) (check : Nat → Byte) (w : Stored) : Nat :=
  (List.zipWith byteErrors (data.toList ++ (List.range n).map check) (w.data.toList ++ w.checkBytes n)).sum

/-- The bytes of two lines added bit by bit, without carry. -/
def xorLine (a b : LineData) : LineData := Vector.zipWith (· ^^^ ·) a b

/-! ### The code (R71) -/

/-- A code the part may use (R71): check bytes for every line of 64 bytes, the whole linear and correcting up to 4 bit
errors, so that no stored bits lie within 4 of two code words; and, as R71 says of content unrelated to the code, some
stored bits lie within 4 of none. -/
structure EccCode where
  checkCount : Nat
  check : LineData → Nat → Byte
  linear : ∀ a b i, check (xorLine a b) i = check a i ^^^ check b i
  corrects : ∀ (w : Stored) (a b : LineData),
    bitErrors checkCount a (check a) w ≤ 4 → bitErrors checkCount b (check b) w ≤ 4 → a = b
  unrelated : ∃ w : Stored, ∀ d, 4 < bitErrors checkCount d (check d) w

/-! ### Such codes exist -/

/-- The check byte i of the nine-fold repetition of a line: byte i mod 64 of the line. -/
def repeatedByte (d : LineData) (i : Nat) : Byte := d[i % 64]'(Nat.mod_lt i (by omega))

/-- Bytes that differ differ in a bit. -/
theorem byteErrors_pos {a b : Byte} (h : a ≠ b) : 1 ≤ byteErrors a b := by
  rw [byteErrors, Nat.one_le_iff_ne_zero, Ne, List.countP_eq_zero]
  intro hz
  apply h
  apply BitVec.eq_of_getLsbD_eq
  intro i hi
  have := hz i (List.mem_range.mpr hi)
  simpa using this

/-- One byte within reach of two different bytes is in error from one of them. -/
theorem byteErrors_add_pos {a b : Byte} (h : a ≠ b) (x : Byte) : 1 ≤ byteErrors a x + byteErrors b x := by
  by_cases ha : a = x
  · have := byteErrors_pos (a := b) (b := x) (fun hb => h (ha.trans hb.symm))
    omega
  · have := byteErrors_pos ha
    omega

/-- Stored bytes lie at least as far from two lists of bytes together as those lists differ in bytes. -/
theorem errors_sum_ge : ∀ (xs ys ss : List Byte), xs.length = ys.length → xs.length = ss.length →
    (List.zipWith (fun x y => if x = y then 0 else 1) xs ys).sum ≤
      (List.zipWith byteErrors xs ss).sum + (List.zipWith byteErrors ys ss).sum
  | [], _, _, _, _ => by simp
  | x :: xs, y :: ys, s :: ss, h, k => by
    have ih := errors_sum_ge xs ys ss (by simpa using h) (by simpa using k)
    simp only [List.zipWith_cons_cons, List.sum_cons]
    split
    · omega
    · rename_i hxy
      have := byteErrors_add_pos hxy s
      omega

/-- Every 64th number below 512, from one below 64. -/
theorem everySixtyFourth : ∀ j, j < 64 → List.Sublist ((List.range 8).map fun m => j + 64 * m) (List.range 512) := by
  decide +kernel

/-- Two lines that differ differ in at least nine bytes of their nine copies. -/
theorem copies_differ {a b : LineData} (h : a ≠ b) :
    9 ≤ (List.zipWith (fun x y : Byte => if x = y then 0 else 1) (a.toList ++ (List.range 512).map (repeatedByte a))
      (b.toList ++ (List.range 512).map (repeatedByte b))).sum := by
  obtain ⟨j, hj, hne⟩ : ∃ j, ∃ hj : j < 64, a[j] ≠ b[j] := by
    by_contra hc
    push Not at hc
    exact h (Vector.ext fun i hi => hc i hi)
  have hdata : 1 ≤ (List.zipWith (fun x y : Byte => if x = y then 0 else 1) a.toList b.toList).sum := by
    have hm : (if a[j] = b[j] then 0 else 1) ∈ List.zipWith (fun x y : Byte => if x = y then 0 else 1) a.toList b.toList := by
      rw [List.mem_iff_getElem]
      exact ⟨j, by simpa using hj, by simp⟩
    rw [if_neg hne] at hm
    exact List.le_sum_of_mem hm
  have hcopy : 8 ≤ (List.zipWith (fun x y : Byte => if x = y then 0 else 1) ((List.range 512).map (repeatedByte a))
      ((List.range 512).map (repeatedByte b))).sum := by
    rw [List.zipWith_map, List.zipWith_self]
    have hF : ∀ m, (fun i => if repeatedByte a i = repeatedByte b i then 0 else 1) (j + 64 * m) = 1 := by
      intro m
      have hm : (j + 64 * m) % 64 = j := by omega
      have hm' : repeatedByte a (j + 64 * m) ≠ repeatedByte b (j + 64 * m) := by simpa only [repeatedByte, hm] using hne
      exact if_neg hm'
    generalize (fun i => if repeatedByte a i = repeatedByte b i then 0 else 1) = F at hF ⊢
    have hs : (((List.range 8).map fun m => j + 64 * m).map F).sum = 8 := by
      simp only [List.map_map, Function.comp_def, hF]
      rfl
    rw [← hs]
    exact List.Sublist.sum_le_sum (List.Sublist.map _ (everySixtyFourth j hj)) (fun _ _ => Nat.zero_le _)
  rw [List.zipWith_append (by simp)]
  simp only [List.sum_append]
  omega

/-- A byte lies in error by 8 bits from 00 and FF together. -/
theorem byteErrors_zero_ones : ∀ a : Byte, byteErrors a 0#8 + byteErrors a 0xFF#8 = 8 := by decide +kernel

/-- The nine-fold repetition is a code the part may use. It shows that such codes exist; nothing says that the part uses it. -/
def repetitionCode : EccCode where
  checkCount := 512
  check := repeatedByte
  linear a b i := by simp [repeatedByte, xorLine]
  corrects w a b ha hb := by
    by_contra hne
    have h1 := copies_differ hne
    have h2 := errors_sum_ge (a.toList ++ (List.range 512).map (repeatedByte a))
      (b.toList ++ (List.range 512).map (repeatedByte b)) (w.data.toList ++ w.checkBytes 512) (by simp)
      (by simp [Stored.checkBytes])
    simp only [bitErrors] at ha hb
    omega
  unrelated := by
    refine ⟨⟨Vector.replicate 64 0#8, [0xFF#8]⟩, fun d => ?_⟩
    have h8 := byteErrors_zero_ones d[0]
    rw [bitErrors, List.zipWith_append (by simp), List.sum_append]
    have h1 : byteErrors d[0] 0#8 ∈ List.zipWith byteErrors d.toList (Vector.replicate 64 0#8).toList :=
      List.mem_iff_getElem.mpr ⟨0, by simp, by simp⟩
    have h2 : byteErrors d[0] 0xFF#8 ∈ List.zipWith byteErrors ((List.range 512).map (repeatedByte d))
        (Stored.checkBytes ⟨Vector.replicate 64 0#8, [0xFF#8]⟩ 512) :=
      List.mem_iff_getElem.mpr ⟨0, by simp [Stored.checkBytes], by simp [Stored.checkBytes, repeatedByte]⟩
    have g1 := List.le_sum_of_mem h1
    have g2 := List.le_sum_of_mem h2
    change 4 < (List.zipWith byteErrors d.toList (Vector.replicate 64 0#8).toList).sum + _
    omega

/-! ### The code in use, its encoder and its decoder -/

/-- The code of the part. DESIGN CHOICE (log entry 9): R71 leaves it to the part, so it is free; nothing is known of it
but what `EccCode` says of every code the part may use. -/
opaque Config.eccCodeOf [Inhabited EccCode] : EccCode

/-- The code of the part. -/
def Config.eccCode : EccCode := @Config.eccCodeOf ⟨repetitionCode⟩

namespace Machine

/-- The check bytes of a line's code word (R71). -/
def eccCheckBytes (d : LineData) : List Byte := (List.range Config.eccCode.checkCount).map (Config.eccCode.check d)

/-- The code word of a line: what a medium that adds no errors returns of it (R65, R71). -/
def codeWord (d : LineData) : Stored := { data := d, check := eccCheckBytes d }

/-- The number of bit positions, data and check bits together, in which stored bits differ from a line's code word (R64). -/
def errorsFrom (d : LineData) (w : Stored) : Nat := bitErrors Config.eccCode.checkCount d (Config.eccCode.check d) w

/-- A line with the data bits at these positions inverted; position p is bit p mod 8 of byte p / 8. -/
def flipBits (positions : List Nat) (d : LineData) : LineData :=
  positions.foldl (fun x p => Vector.ofFn fun i => if i.val = p / 8 then x[i] ^^^ (1#8 <<< (p % 8)) else x[i]) d

/-- The data bits to be inverted so that a code word lies within 4 bits of the stored bits: the first such choice of at
most 4 positions, the fewest first; no two code words lie so near (R71). -/
def correction (w : Stored) : Option (List Nat) :=
  (List.range 5).findSome? fun k =>
    (List.sublistsLen k (List.range 512)).find? fun e => errorsFrom (flipBits e w.data) w ≤ 4

/-- Outcome of a MEDIA READ (Table 4.1). -/
inductive ReadOutcome (α : Type) where
  | clean (data : α)
  | corrected (k : Nat) (data : α)
  | uncorrectable
  deriving DecidableEq, Repr

/-- The decoder (R64): CLEAN for a code word, CORRECTED(k) with the nearest code word's data for 1 to 4 bits in error,
UNCORRECTABLE with no data for more. -/
def decodeStored (w : Stored) : ReadOutcome LineData :=
  match correction w with
  | none => .uncorrectable
  | some e =>
    let d := flipBits e w.data
    if errorsFrom d w = 0 then .clean d else .corrected (errorsFrom d w) d

/-- The data delivered, if any (Table 4.1). -/
def ReadOutcome.delivered {α : Type} : ReadOutcome α → Option α
  | .clean d => some d
  | .corrected _ d => some d
  | .uncorrectable => none

end Machine

end Sys2Proof
end

