-- ==== Sys2Proof/Machine/MetaFormat.lean ====
section
/-! DEFINITION. The layout of metadata lines in their 64 bytes (R2, R120, R131, R132): what every layout the part may use satisfies, the layout in use as a free constant, and a layout that shows such layouts exist. -/

namespace Sys2Proof

/-! ### Fields that fit their widths -/

/-- A record payload's fields fit their widths: frame and logical frame numbers below 2^16, lines below 2^22 (Table 7.1, R187). -/
def JournalRecord.wf : JournalRecord → Bool
  | .moveCommit l n o _ _ => l < 65536 && n < 65536 && o < 65536
  | .spareRetire f => f < 65536
  | .poisonSet line => line < 4194304
  | .poisonClear line => line < 4194304
  | .fenceSet v => v ≤ 65536
  | .shutdown => true
  | .opened => true
  | .unknown _ => true

/-- A frame record's counts fit their widths (R11): wear 32 bits, corrected errors 16 bits. -/
def FrameRecord.wf (r : FrameRecord) : Bool :=
  r.wear < 4294967296 && r.corrected < 65536
    && (match r.owner with
        | some o => o < 65536
        | none => true)

/-- An image item's fields fit their widths. -/
def ImageItem.wf : ImageItem → Bool
  | .fence v => v ≤ 65536
  | .uncleanCount v => v < 4294967296
  | .entry f _ => f < 65536
  | .frame r => r.wf

/-- The content of a metadata line fits its fields' widths. -/
def MetaLine.wf : MetaLine → Bool
  | .geometry g _ => g.nP < 4294967296 && g.spares < 65536 && g.retireWear < 4294967296 && g.formatCount < 4294967296
  | .record _ r _ => r.wf
  | .header h _ => h.posSlot < 65536
  | .image items => items.all ImageItem.wf
  | .invalid => true

/-- The items of one image line that 64 bytes can hold in the arrangement of log entry 7: the fence and the unclean
count, up to 6 map entries, or up to 7 frame records. -/
def imageLineFits (items : List ImageItem) : Bool :=
  (match items with
    | [.fence _, .uncleanCount _] => true
    | _ => false)
  || (items.length ≤ 6 && items.all fun
        | .entry _ _ => true
        | _ => false)
  || (items.length ≤ 7 && items.all fun
        | .frame _ => true
        | _ => false)

/-- The content is such as the part writes (R2, R120, R131, R132, R147): fields in their widths, a record of a kind of
Table 7.1, the line's own check holding; or content whose check holds for no kind. -/
def MetaLine.written (m : MetaLine) : Bool :=
  m.wf &&
    match m with
    | .geometry _ check => check
    | .record _ r check => check && (match r with
        | .unknown _ => false
        | _ => true)
    | .header _ check => check
    | .image items => imageLineFits items
    | .invalid => true

/-- A layout the part may use: the 64 bytes of every line, what a line of 64 bytes reads as, and that every line the
part writes reads back as itself. -/
structure MetaFormat where
  layout : MetaLine → LineData
  read : LineData → MetaLine
  read_layout : ∀ m, m.written = true → read (layout m) = m
  read_wf : ∀ d, (read d).wf = true

/-! ### Such layouts exist -/

namespace Machine

/-- The byte of a record kind, and the payload's bytes. -/
def recordBytes : JournalRecord → List Byte
  | .moveCommit l n o fate p =>
    1#8 :: (leBytes 2 l ++ (leBytes 2 n ++ (leBytes 2 o ++
      ((match fate with
        | .spare => 0#8
        | .retired => 1#8
        | .invalid => 2#8) :: leBytes 8 p.toNat))))
  | .spareRetire f => 2#8 :: leBytes 2 f
  | .poisonSet line => 3#8 :: leBytes 4 line
  | .poisonClear line => 4#8 :: leBytes 4 line
  | .fenceSet v => 5#8 :: leBytes 4 v
  | .shutdown => [6#8]
  | .opened => [7#8]
  | .unknown _ => [0#8]

/-- A record read from its kind and payload. -/
def readRecord (bs : List Byte) : JournalRecord :=
  let x := bs.drop 1
  match (bs.headD 0#8).toNat with
  | 1 => .moveCommit (takeField 2 x) (takeField 2 (x.drop 2)) (takeField 2 ((x.drop 2).drop 2))
      (match ((((x.drop 2).drop 2).drop 2).headD 0#8).toNat with
        | 0 => .spare
        | 1 => .retired
        | _ => .invalid)
      (BitVec.ofNat 64 (takeField 8 ((((x.drop 2).drop 2).drop 2).drop 1)))
  | 2 => .spareRetire (takeField 2 x)
  | 3 => .poisonSet (min 4194303 (takeField 4 x))
  | 4 => .poisonClear (min 4194303 (takeField 4 x))
  | 5 => .fenceSet (min 65536 (takeField 4 x))
  | 6 => .shutdown
  | 7 => .opened
  | n => .unknown n

/-- A frame record's role and marks in one byte. -/
def frameByte (r : FrameRecord) : Byte :=
  BitVec.ofNat 8 ((match r.role with
    | .metadata => 0
    | .mapped => 1
    | .spare => 2
    | .target => 3
    | .retired => 4) + (if r.owner.isSome then 8 else 0) + (if r.wanted then 16 else 0) + (if r.overdue then 32 else 0))

/-- The nine bytes of a frame record. -/
def frameBytes (r : FrameRecord) : List Byte :=
  frameByte r :: (leBytes 2 (r.owner.getD 0) ++ (leBytes 4 r.wear ++ leBytes 2 r.corrected))

/-- A frame record read from nine bytes. -/
def readFrame (bs : List Byte) : FrameRecord :=
  let m := (bs.headD 0#8).toNat
  let x := bs.drop 1
  { role := match m % 8 with
      | 0 => .metadata
      | 1 => .mapped
      | 2 => .spare
      | 3 => .target
      | _ => .retired
    owner := if m / 8 % 2 = 1 then some (takeField 2 x) else none
    wear := takeField 4 (x.drop 2)
    corrected := takeField 2 ((x.drop 2).drop 4)
    wanted := m / 16 % 2 = 1
    overdue := m / 32 % 2 = 1 }

/-- The bytes of an image item. -/
def itemBytes : ImageItem → List Byte
  | .fence v => leBytes 3 v
  | .uncleanCount v => leBytes 4 v
  | .entry f p => leBytes 2 f ++ leBytes 8 p.toNat
  | .frame r => frameBytes r

/-- n map entries read one after the other. -/
def readEntries : Nat → List Byte → List ImageItem
  | 0, _ => []
  | n + 1, bs => .entry (takeField 2 bs) (BitVec.ofNat 64 (takeField 8 (bs.drop 2))) :: readEntries n (bs.drop 10)

/-- n frame records read one after the other. -/
def readFrames : Nat → List Byte → List ImageItem
  | 0, _ => []
  | n + 1, bs => .frame (readFrame bs) :: readFrames n (bs.drop 9)

/-- The first byte of an image line: 16 for fence and unclean count, 32 and the number of map entries, 48 and the
number of frame records. -/
def imageTag (items : List ImageItem) : Nat :=
  match items with
  | .fence _ :: _ => 16
  | .frame _ :: _ => 48 + items.length
  | _ => 32 + items.length

/-- The bytes of a metadata line, at most 64 for a line the part writes. -/
def metaBytes : MetaLine → List Byte
  | .geometry g _ => 1#8 :: (leBytes 4 g.nP ++ (leBytes 2 g.spares ++ (leBytes 4 g.retireWear ++ leBytes 4 g.formatCount)))
  | .record seq r _ => 2#8 :: (leBytes 4 seq.toNat ++ recordBytes r)
  | .header h _ =>
    3#8 :: (leBytes 4 h.seq.toNat ++ (leBytes 4 h.posSeq.toNat ++ (leBytes 2 h.posSlot ++
      (leBytes 4 h.imageCheck.toNat ++ [if h.clean then 1#8 else 0#8]))))
  | .image items => BitVec.ofNat 8 (imageTag items) :: items.flatMap itemBytes
  | .invalid => [0#8]

/-- A metadata line read from its bytes. -/
def readBytes64 (bs : List Byte) : MetaLine :=
  let m := (bs.headD 0#8).toNat
  let x := bs.drop 1
  if m = 1 then
    .geometry ⟨takeField 4 x, takeField 2 (x.drop 4), takeField 4 ((x.drop 4).drop 2),
      takeField 4 (((x.drop 4).drop 2).drop 4)⟩ true
  else if m = 2 then .record (BitVec.ofNat 32 (takeField 4 x)) (readRecord (x.drop 4)) true
  else if m = 3 then
    .header ⟨BitVec.ofNat 32 (takeField 4 x), BitVec.ofNat 32 (takeField 4 (x.drop 4)),
      takeField 2 ((x.drop 4).drop 4), (((((x.drop 4).drop 4).drop 2).drop 4).headD 0#8) = 1#8,
      BitVec.ofNat 32 (takeField 4 (((x.drop 4).drop 4).drop 2))⟩ true
  else if m = 16 then .image [.fence (min 65536 (takeField 3 x)), .uncleanCount (takeField 4 (x.drop 3))]
  else if 32 ≤ m ∧ m < 48 then .image (readEntries (m - 32) x)
  else if 48 ≤ m ∧ m < 64 then .image (readFrames (m - 48) x)
  else .invalid

/-- A line of the first 64 bytes of a list, zeros after its end. -/
def lineOf (bs : List Byte) : LineData := Vector.ofFn fun i => bs[i.val]?.getD 0#8

theorem lineOf_toList (bs : List Byte) (h : bs.length ≤ 64) :
    (lineOf bs).toList = bs ++ List.replicate (64 - bs.length) 0#8 := by
  apply List.ext_getElem
  · simp; omega
  · intro i h1 h2
    have hi : i < 64 := by simpa using h1
    simp only [lineOf, Vector.getElem_toList, Vector.getElem_ofFn, List.getElem_append, List.getElem_replicate]
    split
    · simp [*]
    · rw [List.getElem?_eq_none (by omega)]; rfl

theorem ofNat_toNat {w : Nat} (x : BitVec w) (n : Nat) (h : n = x.toNat) : BitVec.ofNat w n = x := by
  subst h; simp

theorem readRecord_recordBytes (r : JournalRecord) (rest : List Byte) (h : r.wf = true)
    (hu : ∀ k, r ≠ .unknown k) : readRecord (recordBytes r ++ rest) = r := by
  have h8 : ∀ p : Flags64, p.toNat < 256 ^ 8 := fun p => p.isLt
  cases r with
  | moveCommit l n o fate p =>
    simp only [JournalRecord.wf, Bool.and_eq_true, decide_eq_true_eq] at h
    obtain ⟨⟨hl, hn⟩, ho⟩ := h
    simp only [recordBytes, readRecord, List.cons_append, List.append_assoc, List.drop_succ_cons, List.drop_zero,
      List.headD_cons, drop_leBytes_append]
    rw [takeField_append 2 l _ hl, takeField_append 2 n _ hn, takeField_append 2 o _ ho, takeField_append 8 _ _ (h8 p)]
    cases fate <;> simp
  | spareRetire f =>
    simp only [JournalRecord.wf, decide_eq_true_eq] at h
    simp [recordBytes, readRecord, takeField_append 2 f _ h]
  | poisonSet l =>
    simp only [JournalRecord.wf, decide_eq_true_eq] at h
    simp only [recordBytes, readRecord, List.cons_append, List.drop_succ_cons, List.drop_zero, List.headD_cons]
    rw [takeField_append 4 l _ (by omega)]
    simp; omega
  | poisonClear l =>
    simp only [JournalRecord.wf, decide_eq_true_eq] at h
    simp only [recordBytes, readRecord, List.cons_append, List.drop_succ_cons, List.drop_zero, List.headD_cons]
    rw [takeField_append 4 l _ (by omega)]
    simp; omega
  | fenceSet v =>
    simp only [JournalRecord.wf, decide_eq_true_eq] at h
    simp only [recordBytes, readRecord, List.cons_append, List.drop_succ_cons, List.drop_zero, List.headD_cons]
    rw [takeField_append 4 v _ (by omega)]
    simp; omega
  | shutdown => simp [recordBytes, readRecord]
  | opened => simp [recordBytes, readRecord]
  | unknown k => exact absurd rfl (hu k)

theorem readFrame_frameBytes (r : FrameRecord) (rest : List Byte) (h : r.wf = true) :
    readFrame (frameBytes r ++ rest) = r := by
  obtain ⟨role, owner, wear, corrected, wanted, overdue⟩ := r
  simp only [FrameRecord.wf, Bool.and_eq_true, decide_eq_true_eq] at h
  obtain ⟨⟨hw, hc⟩, ho⟩ := h
  have hown : owner.getD 0 < 256 ^ 2 := by cases owner <;> simp_all
  simp only [frameBytes, readFrame, List.cons_append, List.append_assoc, List.drop_succ_cons, List.drop_zero,
    List.headD_cons, drop_leBytes_append]
  rw [takeField_append 2 _ _ hown, takeField_append 4 _ _ hw, takeField_append 2 _ _ hc]
  cases role <;> cases owner <;> cases wanted <;> cases overdue <;> simp [frameByte]

theorem frameBytes_length (r : FrameRecord) : (frameBytes r).length = 9 := by simp [frameBytes]

theorem readEntries_bytes : ∀ (items : List ImageItem) (rest : List Byte),
    (∀ x ∈ items, x.wf = true) → (∀ x ∈ items, ∃ f p, x = .entry f p) →
    readEntries items.length (items.flatMap itemBytes ++ rest) = items
  | [], _, _, _ => rfl
  | x :: items, rest, hw, he => by
    obtain ⟨f, p, rfl⟩ := he x (by simp)
    have hf : f < 256 ^ 2 := by simpa [ImageItem.wf] using hw _ (List.mem_cons_self ..)
    have ih := readEntries_bytes items rest (fun y hy => hw y (by simp [hy])) (fun y hy => he y (by simp [hy]))
    have hd : (leBytes 2 f ++ (leBytes 8 p.toNat ++ (items.flatMap itemBytes ++ rest))).drop 10
        = items.flatMap itemBytes ++ rest := by
      rw [← List.append_assoc]
      exact List.drop_left' (by simp)
    simp only [List.length_cons, readEntries, List.flatMap_cons, itemBytes, List.append_assoc, drop_leBytes_append]
    rw [takeField_append 2 f _ hf, takeField_append 8 _ _ p.isLt, hd, ih, BitVec.ofNat_toNat, BitVec.setWidth_eq]

theorem readFrames_bytes : ∀ (items : List ImageItem) (rest : List Byte),
    (∀ x ∈ items, x.wf = true) → (∀ x ∈ items, ∃ r, x = .frame r) →
    readFrames items.length (items.flatMap itemBytes ++ rest) = items
  | [], _, _, _ => rfl
  | x :: items, rest, hw, he => by
    obtain ⟨r, rfl⟩ := he x (by simp)
    have hr : r.wf = true := by simpa [ImageItem.wf] using hw _ (List.mem_cons_self ..)
    have ih := readFrames_bytes items rest (fun y hy => hw y (by simp [hy])) (fun y hy => he y (by simp [hy]))
    simp only [List.length_cons, readFrames, List.flatMap_cons, itemBytes, List.append_assoc]
    rw [readFrame_frameBytes r _ hr, List.drop_left' (frameBytes_length r), ih]

/-- The three forms of an image line that fits. -/
theorem imageLineFits_cases {items : List ImageItem} (h : imageLineFits items = true) :
    (∃ v u, items = [.fence v, .uncleanCount u]) ∨
    (items.length ≤ 6 ∧ ∀ x ∈ items, ∃ f p, x = .entry f p) ∨ (items.length ≤ 7 ∧ ∀ x ∈ items, ∃ r, x = .frame r) := by
  simp only [imageLineFits, Bool.or_eq_true, Bool.and_eq_true, decide_eq_true_eq, List.all_eq_true] at h
  rcases h with (h | ⟨hl, h⟩) | ⟨hl, h⟩
  · left
    split at h
    · exact ⟨_, _, rfl⟩
    · cases h
  · refine .inr (.inl ⟨hl, fun x hx => ?_⟩)
    have := h x hx
    cases x <;> simp_all
  · refine .inr (.inr ⟨hl, fun x hx => ?_⟩)
    have := h x hx
    cases x <;> simp_all

theorem flatMap_length {items : List ImageItem} {n : Nat} (h : ∀ x ∈ items, (itemBytes x).length = n) :
    (items.flatMap itemBytes).length = items.length * n := by
  induction items with
  | nil => simp
  | cons x items ih =>
    rw [List.flatMap_cons, List.length_append, h x (by simp), ih (fun y hy => h y (by simp [hy])), List.length_cons]
    ring

theorem metaBytes_length {m : MetaLine} (h : m.written = true) : (metaBytes m).length ≤ 64 := by
  cases m with
  | geometry g c => simp [metaBytes]
  | record seq r c => cases r <;> simp [metaBytes, recordBytes]
  | header hd c => simp [metaBytes]
  | image items =>
    simp only [MetaLine.written, Bool.and_eq_true] at h
    rcases imageLineFits_cases h.2 with ⟨v, u, rfl⟩ | ⟨hl, he⟩ | ⟨hl, hf⟩
    · simp [metaBytes, itemBytes]
    · have := flatMap_length (items := items) (n := 10) (fun x hx => by obtain ⟨f, p, rfl⟩ := he x hx; simp [itemBytes])
      simp only [metaBytes, List.length_cons, this]
      omega
    · have := flatMap_length (items := items) (n := 9)
        (fun x hx => by obtain ⟨r, rfl⟩ := hf x hx; simp [itemBytes, frameBytes_length])
      simp only [metaBytes, List.length_cons, this]
      omega
  | invalid => simp [metaBytes]

theorem readBytes64_image {items : List ImageItem} (rest : List Byte) (hw : ∀ x ∈ items, x.wf = true)
    (hf : imageLineFits items = true) : readBytes64 (metaBytes (.image items) ++ rest) = .image items := by
  rcases imageLineFits_cases hf with ⟨v, u, rfl⟩ | ⟨hl, he⟩ | ⟨hl, hr⟩
  · have hv : v ≤ 65536 := by simpa [ImageItem.wf] using hw (.fence v) (by simp)
    have hu : u < 256 ^ 4 := by simpa [ImageItem.wf] using hw (.uncleanCount u) (by simp)
    simp only [metaBytes, imageTag, readBytes64, List.flatMap_cons, List.flatMap_nil, itemBytes, List.append_nil,
      List.cons_append, List.append_assoc, List.headD_cons, List.drop_succ_cons, List.drop_zero, drop_leBytes_append]
    rw [takeField_append 3 v _ (by omega), takeField_append 4 u _ hu]
    simp; omega
  · have ht : imageTag items = 32 + items.length := by
      cases items with
      | nil => rfl
      | cons x xs => obtain ⟨f, p, rfl⟩ := he x (by simp); rfl
    have hm : (BitVec.ofNat 8 (imageTag items)).toNat = 32 + items.length := by
      rw [ht, BitVec.toNat_ofNat]; omega
    simp only [metaBytes, readBytes64, List.cons_append, List.headD_cons, List.drop_succ_cons, List.drop_zero, hm]
    rw [if_neg (by omega), if_neg (by omega), if_neg (by omega), if_neg (by omega), if_pos (by omega),
      Nat.add_sub_cancel_left, readEntries_bytes items rest hw he]
  · by_cases hn : items = []
    · subst hn
      simp [metaBytes, imageTag, readBytes64, readEntries]
    · have ht : imageTag items = 48 + items.length := by
        cases items with
        | nil => exact absurd rfl hn
        | cons x xs => obtain ⟨r, rfl⟩ := hr x (by simp); rfl
      have hm : (BitVec.ofNat 8 (imageTag items)).toNat = 48 + items.length := by
        rw [ht, BitVec.toNat_ofNat]; omega
      simp only [metaBytes, readBytes64, List.cons_append, List.headD_cons, List.drop_succ_cons, List.drop_zero, hm]
      rw [if_neg (by omega), if_neg (by omega), if_neg (by omega), if_neg (by omega), if_neg (by omega),
        if_pos (by omega), Nat.add_sub_cancel_left, readFrames_bytes items rest hw hr]

theorem readBytes64_metaBytes {m : MetaLine} (rest : List Byte) (h : m.written = true) :
    readBytes64 (metaBytes m ++ rest) = m := by
  have h4 : ∀ x : Word32, x.toNat < 256 ^ 4 := fun x => x.isLt
  cases m with
  | geometry g c =>
    simp only [MetaLine.written, MetaLine.wf, Bool.and_eq_true, decide_eq_true_eq] at h
    obtain ⟨⟨⟨⟨h1, h2⟩, h3⟩, h5⟩, rfl⟩ := h
    simp only [metaBytes, readBytes64, List.cons_append, List.append_assoc, List.headD_cons, List.drop_succ_cons,
      List.drop_zero, drop_leBytes_append]
    rw [takeField_append 4 _ _ h1, takeField_append 2 _ _ h2, takeField_append 4 _ _ h3, takeField_append 4 _ _ h5]
    rfl
  | record seq r c =>
    simp only [MetaLine.written, MetaLine.wf, Bool.and_eq_true] at h
    obtain ⟨hr, rfl, hk⟩ := h
    simp only [metaBytes, readBytes64, List.cons_append, List.append_assoc, List.headD_cons, List.drop_succ_cons,
      List.drop_zero, drop_leBytes_append]
    rw [takeField_append 4 _ _ (h4 seq), readRecord_recordBytes r rest hr (fun k hkk => by simp [hkk] at hk)]
    simp
  | header hd c =>
    simp only [MetaLine.written, MetaLine.wf, Bool.and_eq_true, decide_eq_true_eq] at h
    obtain ⟨hs, rfl⟩ := h
    obtain ⟨seq, pos, slot, clean, check⟩ := hd
    simp only [metaBytes, readBytes64, List.cons_append, List.append_assoc, List.headD_cons, List.drop_succ_cons,
      List.drop_zero, drop_leBytes_append]
    rw [takeField_append 4 _ _ (h4 seq), takeField_append 4 _ _ (h4 pos), takeField_append 2 _ _ hs,
      takeField_append 4 _ _ (h4 check)]
    cases clean <;> simp
  | image items =>
    simp only [MetaLine.written, MetaLine.wf, Bool.and_eq_true, List.all_eq_true] at h
    exact readBytes64_image rest h.1 h.2
  | invalid => simp [metaBytes, readBytes64]

theorem readFrame_wf (bs : List Byte) : (readFrame bs).wf = true := by
  have h4 := takeField_lt 4 ((bs.drop 1).drop 2)
  have h2 := takeField_lt 2 (((bs.drop 1).drop 2).drop 4)
  have ho := takeField_lt 2 (bs.drop 1)
  simp only [readFrame, FrameRecord.wf, Bool.and_eq_true]
  refine ⟨⟨decide_eq_true h4, decide_eq_true h2⟩, ?_⟩
  split
  · rename_i o h
    split at h
    · cases h; simpa using ho
    · cases h
  · rfl

theorem readRecord_wf (bs : List Byte) : (readRecord bs).wf = true := by
  simp only [readRecord]
  split <;> simp only [JournalRecord.wf, Bool.and_eq_true, decide_eq_true_eq]
  · exact ⟨⟨takeField_lt 2 _, takeField_lt 2 _⟩, takeField_lt 2 _⟩
  · exact takeField_lt 2 _
  all_goals omega

theorem readEntries_wf : ∀ n bs, ∀ x ∈ readEntries n bs, x.wf = true
  | 0, _, _, h => by simp [readEntries] at h
  | n + 1, bs, x, h => by
    simp only [readEntries, List.mem_cons] at h
    rcases h with rfl | h
    · simpa [ImageItem.wf] using takeField_lt 2 bs
    · exact readEntries_wf n _ x h

theorem readFrames_wf : ∀ n bs, ∀ x ∈ readFrames n bs, x.wf = true
  | 0, _, _, h => by simp [readFrames] at h
  | n + 1, bs, x, h => by
    simp only [readFrames, List.mem_cons] at h
    rcases h with rfl | h
    · exact readFrame_wf bs
    · exact readFrames_wf n _ x h

theorem readBytes64_wf (bs : List Byte) : (readBytes64 bs).wf = true := by
  simp only [readBytes64]
  split_ifs
  · simp only [MetaLine.wf, Bool.and_eq_true, decide_eq_true_eq]
    exact ⟨⟨⟨takeField_lt 4 _, takeField_lt 2 _⟩, takeField_lt 4 _⟩, takeField_lt 4 _⟩
  · exact readRecord_wf _
  · simpa [MetaLine.wf] using takeField_lt 2 (((bs.drop 1).drop 4).drop 4)
  · simpa [MetaLine.wf, ImageItem.wf] using takeField_lt 4 ((bs.drop 1).drop 3)
  · simpa [MetaLine.wf] using readEntries_wf _ _
  · simpa [MetaLine.wf] using readFrames_wf _ _
  · rfl

/-- One layout the part may use. It shows that such layouts exist; nothing says that the part uses it. -/
def plainFormat : MetaFormat where
  layout m := lineOf (metaBytes m)
  read d := readBytes64 d.toList
  read_layout m h := by rw [lineOf_toList _ (metaBytes_length h)]; exact readBytes64_metaBytes _ h
  read_wf d := readBytes64_wf _

end Machine

/-! ### The layout in use -/

/-- The layout of the part's metadata lines. DESIGN CHOICE (log entry 6): R120 and R131 leave it to the part, so it is
free; nothing is known of it but what `MetaFormat` says of every layout the part may use. -/
opaque Config.metaFormatOf [Inhabited MetaFormat] : MetaFormat

/-- The layout of the part's metadata lines. -/
def Config.metaFormat : MetaFormat := @Config.metaFormatOf ⟨Machine.plainFormat⟩

end Sys2Proof
end

