-- ==== Sys2Proof/Config.lean ====
section
/-! DEFINITION. Fixed figures of the part (00_scope.md, Tables 0.4 and 0.5; Table 10.2) and the constants the manual leaves to the part's own layout. -/

namespace Sys2Proof.Config

/-- Absorb Buffer slots (Table 0.5). -/
def slotCount : Nat := 512

/-- Drain places (R27). -/
def drainPlaces : Nat := 4

/-- Host tags (R45). -/
def hostTags : Nat := 32

/-- Entries of the pending PERSIST list (R59). -/
def persistPlaces : Nat := 8

/-- Requests of the migration queue (R82). -/
def migrationQueue : Nat := 8

/-- Records of the journal staging queue (R121). -/
def stagingPlaces : Nat := 16

/-- Media operations in flight (R67). -/
def mediaPlaces : Nat := 8

/-- Grants of other classes after which a waiting CHECKPOINT or COPY class is promoted (R70). -/
def promotionLimit : Nat := 32

/-- Slots of the journal ring (R126). -/
def ringSlots : Nat := 2048

/-- Journal frames J (R1). -/
def journalFrames : Nat := 32

/-- Used ring slots at which the ring trigger starts a checkpoint (R128). -/
def ringTrigger : Nat := 1536

/-- The jump of the next sequence number after a truncated or lower-area recovery (R138). -/
def sequenceJump : Nat := 4096

/-- RetireWear selected by a FORMAT argument of 0 (R1, R145). -/
def defaultRetireWear : Nat := 640000000

/-- Ticks behind the counter at which a stamp is advanced (R26): 2^30. -/
def stampClamp : Nat := 1073741824

/-- The image check of R131, taken one image line at a time.
DESIGN CHOICE (log entry 8): the manual does not give the computation; nothing constrains it. -/
opaque imageCheckStep : Word32 → MetaLine → Word32

end Sys2Proof.Config
end

