-- ==== Sys2Proof/Machine/State.lean ====
section
/-! DEFINITION. The state of the part: one structure per block of Table 0.2, each field citing the rule that names it, and its value at hard reset (R144). -/

namespace Sys2Proof.Machine

/-- Why a step faults. No rule of the manual makes a command stop the machine, so there is no constructor: safe. -/
inductive Fault where
  deriving DecidableEq, Repr

/-- Why a command is refused. -/
inductive Refusal where
  /-- Raised by an arm of exec whose command has no meaning yet; none is left. Safe: the machine stops. -/
  | notModelled (mnemonic : String)
  deriving DecidableEq, Repr

/-! ### Unit Control (ch8, ch9) -/

/-- The unit states of Table 8.1. -/
inductive UnitState where
  | reset | unformatted | formatting | recovering | online | writeProtected | closing | drainLock | safe | failed
  deriving DecidableEq, Repr

/-- Origin of the SAFE state (R141). -/
inductive SafeOrigin where
  | drainLock | prepareOff
  deriving DecidableEq, Repr

/-- Geometry standing (R141). -/
inductive Standing where
  | inUse | invalid | mismatch
  deriving DecidableEq, Repr

/-- Failure cause of FAILED (R141, R143). -/
inductive FailCause where
  | secondTimeout | noCheckpoint | imageInconsistent | formatProgramFail
  deriving DecidableEq, Repr

/-- Sequence stage of DRAIN_LOCK and CLOSING (R169). -/
inductive Stage where
  | emptying | checkpoint | shutdown
  deriving DecidableEq, Repr

/-- One of the two checkpoint areas (R3). -/
inductive Area where
  | a | b
  deriving DecidableEq, Repr

/-- Where FORMAT stands in Table 8.4: the operation now requested. -/
inductive FormatStep where
  | oldRecord
  | wipeSlot (slot : Nat)
  | imageLine (line : Nat)
  | headerA
  | headerB
  | newRecord
  deriving DecidableEq, Repr

/-- FORMAT in progress (R145 to R148). -/
structure FormatWork where
  spares : Nat
  retireWear : Nat
  step : FormatStep
  newCount : Nat
  imageCheck : Word32
  deriving DecidableEq, Repr

/-- One map entry (Table 1.7). -/
structure MapEntry where
  frame : Nat
  poison : Flags64
  migrationMark : Bool
  failMark : Bool
  deriving DecidableEq, Repr

/-- The tables as recovery rebuilds them, before they are loaded (R135, R137, R153). -/
structure Tables where
  entries : List MapEntry
  frames : List FrameRecord
  fence : Nat
  journaledFence : Nat
  unclean : Nat
  deriving DecidableEq, Repr

/-- The record replay applied last, with the slot that held its applied copy (R136, R138). -/
structure AppliedRecord where
  seq : Word32
  record : JournalRecord
  slot : Nat
  deriving DecidableEq, Repr

/-- Replay in progress (R136): slots judged so far, the slot being read, the expected sequence number, the last
applied record and how many slots from the position's slot up to and including it. -/
structure ReplayWork where
  judged : Nat
  slot : Nat
  expected : Word32
  applied : Option AppliedRecord
  span : Nat
  tables : Tables
  deriving DecidableEq, Repr

/-- The image of one candidate area being read (R152): lines read so far, newest first, and the check over them. -/
structure ImageWork where
  line : Nat
  check : Word32
  items : List (List ImageItem)
  deriving DecidableEq, Repr

/-- The step recovery stands in (R150 to R153). -/
inductive RecoveryStep where
  | geometry
  | headerA
  | headerB
  | image (work : ImageWork)
  | replay (work : ReplayWork)
  deriving DecidableEq, Repr

/-- Recovery in progress. `candidates` are the areas still to be tried, the one being read first (R151);
`sawInconsistent` says that some area passed its image check and failed the consistency examination (R152). -/
structure RecoveryWork where
  step : RecoveryStep
  headerA : Option CheckpointHeader
  headerB : Option CheckpointHeader
  candidates : List Area
  sawInconsistent : Bool
  deriving DecidableEq, Repr

/-- Unit Control (Table 0.2). -/
structure UnitControl where
  state : UnitState
  safeOrigin : Option SafeOrigin
  standing : Option Standing
  failCause : Option FailCause
  restartPending : Bool
  stage : Option Stage
  holdUp : Bool
  sizeStraps : BitVec 6
  addrStraps : BitVec 2
  geometry : Option GeometryRecord
  format : Option FormatWork
  recovery : Option RecoveryWork
  deriving DecidableEq, Repr

/-! ### Time Base and Settings (ch10) -/

/-- The ten settings (Table 10.2). -/
structure Settings where
  drainAge : Nat
  highWater : Nat
  lowWater : Nat
  sweepPeriod : Nat
  checkpointEvery : Nat
  levelThreshold : Nat
  retireErrors : Nat
  mediaTimeout : Nat
  spareAlert : Nat
  lifeAlert : Nat
  deriving DecidableEq, Repr

/-- The defaults of Table 10.2. -/
def Settings.defaults : Settings :=
  { drainAge := 4000, highWater := 384, lowWater := 256, sweepPeriod := 1000000, checkpointEvery := 300,
    levelThreshold := 1000000, retireErrors := 64, mediaTimeout := 20000, spareAlert := 10, lifeAlert := 90 }

/-- Time Base and Settings (Table 0.2; R170 to R174). -/
structure TimeBase where
  tick : Word32
  nextBoundary : Word32
  sweeps : Nat
  active : Settings
  staged : Settings
  deriving DecidableEq, Repr

/-! ### Host Port (ch3) -/

/-- Kinds of host request (Table 3.1). -/
inductive RequestKind where
  | read | write | persist
  deriving DecidableEq, Repr

/-- Standings of a tag entry (R45). `reading losing`: the READ's medium read is in flight (false), or the READ waits
for its line's writes to be lost (true, R52). -/
inductive TagStanding where
  | waiting
  | reading (losing : Bool)
  | answerHeld
  | persistWaiting
  | persistPending
  deriving DecidableEq, Repr

/-- One occupied entry of the tag table (R45). Its place in the order of arrival is its place in the list. A READ or PERSIST
has no mask and no data, and an accepted write no data: zeros stand for them (log entry 33). -/
structure TagEntry where
  tag : BitVec 5
  kind : RequestKind
  line : Nat
  mask : Flags64
  data : LineData
  standing : TagStanding
  deriving DecidableEq, Repr

/-- One entry of the pending PERSIST list (R59). -/
structure PendingPersist where
  tag : BitVec 5
  barrier : Word32
  deriving DecidableEq, Repr

/-- Host Port (Table 0.2). The write wait queue is the WAITING writes of `entries` (R57, log entry 5). -/
structure HostPort where
  entries : List TagEntry
  acceptSeq : Word32
  persists : List PendingPersist
  deriving DecidableEq, Repr

/-! ### Absorb Buffer (ch2) -/

/-- The re-dirty mark (Table 2.1). -/
structure RedirtyMark where
  tick : Word32
  seq : Word32
  deriving DecidableEq, Repr

/-- A non-FREE slot (Table 2.1): DRAINING when `draining`, DIRTY otherwise. -/
structure Slot where
  line : Nat
  draining : Bool
  data : LineData
  valid : Flags64
  stamp : Word32
  oldest : Word32
  newest : Word32
  redirty : Option RedirtyMark
  failedOnce : Bool
  deriving DecidableEq, Repr

/-- Phases of a drain (section 2.1). -/
inductive DrainPhase where
  | fill | poisonWait | write | losing | clearWait
  deriving DecidableEq, Repr

/-- A drain in one of the four places (R27, R31). `formed` is the line to be written once it is formed (R32 to R35). -/
structure Drain where
  place : Fin 4
  line : Nat
  snapshot : LineData
  snapMask : Flags64
  covered : Word32
  physical : Nat
  poisoned : Bool
  formed : LineData
  phase : DrainPhase
  deriving DecidableEq, Repr

/-- Absorb Buffer (Table 0.2). The FREE slots are the 512 less the listed ones (R21, log entry 5). -/
structure AbsorbBuffer where
  slots : List Slot
  drains : List Drain
  pressure : Bool
  flush : Option Word32
  deriving DecidableEq, Repr

/-! ### Map Controller (ch1) -/

/-- Map Controller (Table 0.2): line map, frame table, spare pool, fences, latch, tables-loaded condition. -/
structure MapController where
  loaded : Bool
  entries : List MapEntry
  frames : List FrameRecord
  pool : List Nat
  fence : Nat
  volatileFence : Option Nat
  latch : Bool
  unclean : Nat
  deriving DecidableEq, Repr

/-- The Map Controller with no tables (R20). -/
def MapController.unloaded : MapController :=
  { loaded := false, entries := [], frames := [], pool := [], fence := 0, volatileFence := none, latch := false,
    unclean := 0 }

/-! ### Migration Engine (ch5, ch6) -/

/-- Migration reasons (Table 5.1). -/
inductive Reason where
  | retireWear | retireError | retireProgram | level | manual
  deriving DecidableEq, Repr

/-- A request of the migration queue (R82). -/
structure MigRequest where
  logical : Nat
  reason : Reason
  deriving DecidableEq, Repr

/-- Phases other than IDLE (section 5.2). -/
inductive MigPhase where
  | quiesce | copy | commitWait
  deriving DecidableEq, Repr

/-- The late copy in progress (R101): its line, and whether a drain write of the line completed meanwhile. -/
structure LateCopy where
  line : Nat
  redrained : Bool
  deriving DecidableEq, Repr

/-- The migration in progress (Table 5.3), with what R101 needs of late lines: the late copy in progress, the line of
each POISON_SET record handed over and not yet durable, oldest first, and of the late lines those whose copy is done with
and whose flag waits for such records alone (log entry 13). -/
structure Migration where
  phase : MigPhase
  logical : Nat
  reason : Reason
  source : Nat
  target : Option Nat
  copyIndex : Nat
  pendingPoison : Flags64
  lateMask : Flags64
  lateFail : Option Nat
  lateCopy : Option LateCopy
  lateAwaited : List Nat
  lateSettled : Flags64
  abortPending : Bool
  fate : Fate
  commitDurable : Bool
  deriving DecidableEq, Repr

/-- Results of the last migration result (R106). -/
inductive MigResult where
  | committed | aborted | noSpare | overdue | evicted
  deriving DecidableEq, Repr

/-- The last migration result (R106). -/
structure LastResult where
  logical : Nat
  reason : Reason
  result : MigResult
  tick : Word32
  deriving DecidableEq, Repr

/-- Outcomes of the level check record (Table 6.3). -/
inductive LevelOutcome where
  | queued | dropped | belowThreshold | levelPending | noSpare | protected_
  deriving DecidableEq, Repr

/-- What a level check that was made compared (R117). -/
structure LevelFigures where
  hottest : Nat
  owner : Nat
  wear : Nat
  head : Nat
  headWear : Nat
  deriving DecidableEq, Repr

/-- The level check record (R117). -/
structure LevelCheck where
  tick : Word32
  outcome : LevelOutcome
  figures : Option LevelFigures
  deriving DecidableEq, Repr

/-- Migration Engine (Table 0.2). -/
structure MigrationEngine where
  current : Option Migration
  retireQueue : List MigRequest
  backQueue : List MigRequest
  lastResult : Option LastResult
  levelCheck : Option LevelCheck
  deriving DecidableEq, Repr

/-! ### Media Port (ch4) -/

/-- Request classes, highest first (Table 4.2). -/
inductive MediaClass where
  | journal | hostRead | drain | checkpoint | copy
  deriving DecidableEq, Repr

/-- The requester an outcome is reported to (R66). `orphan`: the work was abandoned while the operation was in
flight, and its outcome changes no state of the requester (R134). -/
inductive Requester where
  | host (tag : BitVec 5)
  | drain (place : Fin 4)
  | engine
  | journal
  | checkpoint
  | unitControl
  | orphan
  deriving DecidableEq, Repr

/-- The 64 bytes of a MEDIA WRITE: a line of data, or a metadata line in the part's own layout (log entry 6). -/
inductive Payload where
  | data (line : LineData)
  | metaLine (line : MetaLine)
  deriving DecidableEq, Repr

/-- Kinds of media operation (R63). -/
inductive MediaKind where
  | read
  | write (payload : Payload)
  deriving DecidableEq, Repr

/-- A request to the Media Port (R66). -/
structure MediaRequest where
  cls : MediaClass
  requester : Requester
  kind : MediaKind
  physical : Nat
  deriving DecidableEq, Repr

/-- An operation in flight (R67, R75): the attempt's identity, the request, the tick of sending and the time limit. -/
structure InFlight where
  id : AttemptId
  request : MediaRequest
  sent : Word32
  limit : Nat
  deriving DecidableEq, Repr

/-- Events of the last media error record (R74). -/
inductive MediaEvent where
  | corrected | uncorrectable | programFail | timeout | secondTimeout
  deriving DecidableEq, Repr

/-- The last media error record (R74). -/
structure MediaError where
  physical : Nat
  isWrite : Bool
  cls : MediaClass
  event : MediaEvent
  bits : Nat
  tick : Word32
  deriving DecidableEq, Repr

/-- Media Port (Table 0.2). `arriving` holds the requests handed over in the present happening, before they take
their arrival order (R66, log entry 21). -/
structure MediaPort where
  waiting : List MediaRequest
  arriving : List MediaRequest
  inflight : List InFlight
  grantCounts : Vector Word32 8
  promoCheckpoint : Nat
  promoCopy : Nat
  lastError : Option MediaError
  deriving DecidableEq, Repr

/-- The Media Port after a reset (R63, R70, R80). -/
def MediaPort.empty : MediaPort :=
  { waiting := [], arriving := [], inflight := [], grantCounts := Vector.replicate 8 0#32, promoCheckpoint := 0,
    promoCopy := 0, lastError := none }

/-! ### Journal Controller (ch7) -/

/-- Creators of records (R122). -/
inductive Creator where
  | mapController
  | drain (place : Fin 4)
  | engine
  | lateCopy (line : Nat)
  | unitControl
  deriving DecidableEq, Repr

/-- A record in the staging queue, with the sequence number it took at its first issue (R121, R123). -/
structure StagedRecord where
  creator : Creator
  record : JournalRecord
  seq : Option Word32
  deriving DecidableEq, Repr

/-- A waiting creator with the records it keeps (R122). -/
structure Waiter where
  creator : Creator
  records : List JournalRecord
  deriving DecidableEq, Repr

/-- The current checkpoint descriptor (R127). -/
structure Descriptor where
  area : Area
  seq : Word32
  posSeq : Word32
  posSlot : Nat
  clean : Bool
  deriving DecidableEq, Repr

/-- Phases of a checkpoint in progress (Table 7.4). -/
inductive CheckpointPhase where
  | starting | image | header
  deriving DecidableEq, Repr

/-- The image fixed for a checkpoint (R130). -/
structure Image where
  entries : List (Nat × Flags64)
  frames : List FrameRecord
  fence : Nat
  unclean : Nat
  deriving DecidableEq, Repr

/-- The checkpoint in progress (Table 7.4), with the image fixed, the image lines written, the check so far and the
ring slots taken since the image was fixed (R129 to R132). -/
structure Checkpoint where
  phase : CheckpointPhase
  area : Area
  seq : Word32
  posSeq : Word32
  posSlot : Nat
  clean : Bool
  linesWritten : Nat
  image : Image
  imageCheck : Word32
  slotsTaken : Nat
  deriving DecidableEq, Repr

/-- Journal Controller (Table 0.2). -/
structure JournalController where
  staging : List StagedRecord
  waiters : List Waiter
  writing : Bool
  head : Nat
  tail : Nat
  full : Bool
  nextSeq : Word32
  fence : Nat
  descriptor : Option Descriptor
  checkpoint : Option Checkpoint
  deriving DecidableEq, Repr

/-- The Journal Controller after a reset (R121, R122, R126, R127). -/
def JournalController.empty : JournalController :=
  { staging := [], waiters := [], writing := false, head := 0, tail := 0, full := false, nextSeq := 0#32, fence := 0,
    descriptor := none, checkpoint := none }

/-! ### Health Monitor (ch10) -/

/-- Health Monitor (Table 10.4, R180). -/
structure HealthMonitor where
  correctedReads : Nat
  uncorrectableReads : Nat
  programFails : Nat
  drains : Nat
  lostWrites : Nat
  migrationsRetire : Nat
  migrationsLevel : Nat
  migrationsManual : Nat
  migrationsAborted : Nat
  spareLow : Bool
  lifeHigh : Bool
  deriving DecidableEq, Repr

/-- The Health Monitor after a reset (R178, R180). -/
def HealthMonitor.zero : HealthMonitor :=
  { correctedReads := 0, uncorrectableReads := 0, programFails := 0, drains := 0, lostWrites := 0,
    migrationsRetire := 0, migrationsLevel := 0, migrationsManual := 0, migrationsAborted := 0, spareLow := false,
    lifeHigh := false }

/-! ### Management Link (ch11) -/

/-- Status codes (Table 11.2), less NO_RESPONSE, which no pending response carries. -/
inductive Status where
  | ok | accepted | busy | badState | badArg | badCrc | unknownCommand
  deriving DecidableEq, Repr

/-- The pending response (R182, R183). -/
structure Response where
  status : Status
  tag : Byte
  results : List Byte
  deriving DecidableEq, Repr

/-- Management Link (Table 0.2): pending response, event flags, event enables (R185, R186). -/
structure ManagementLink where
  response : Option Response
  flags : BitVec 17
  enables : BitVec 17
  deriving DecidableEq, Repr

/-! ### Outputs (the model's own record, log entry 4) -/

/-- Host response codes (Table 3.2, Table 11.13). -/
inductive HostCode where
  | data | done | fenced | poison | refused | notReady
  deriving DecidableEq, Repr

/-- One response sent at the host port (Table 11.13). -/
structure HostResponse where
  tag : BitVec 5
  code : HostCode
  data : LineData
  deriving DecidableEq, Repr

/-- One attempt sent to the medium (R63); its check bytes are `Attempt.checkBytes`. -/
structure Attempt where
  id : AttemptId
  kind : MediaKind
  physical : Nat
  deriving DecidableEq, Repr

/-- What left the ports in the latest happening, each list oldest first: host responses, attempts sent to the medium,
bytes returned by a read transfer, and whether the medium received a discard of its outstanding attempts (R80). -/
structure Outputs where
  host : List HostResponse
  media : List Attempt
  link : List Byte
  mediaDiscard : Bool
  deriving DecidableEq, Repr

/-- Nothing left the ports. -/
def Outputs.none : Outputs := { host := [], media := [], link := [], mediaDiscard := false }

/-! ### The whole part -/

/-- The state of the part, with the queue of commands waiting, first in first out. -/
structure State where
  unit : UnitControl
  time : TimeBase
  host : HostPort
  buf : AbsorbBuffer
  map : MapController
  mig : MigrationEngine
  media : MediaPort
  jrn : JournalController
  health : HealthMonitor
  link : ManagementLink
  out : Outputs
  pending : List Instr
  deriving DecidableEq, Repr

/-- Hard reset (R144): reset asserted, every block at its hard-reset values, no command waiting.
Straps, hold-up level and next boundary: DESIGN CHOICE, the manual gives no value before the first release (log entry 10). -/
def State.reset : State :=
  { unit :=
      { state := .reset, safeOrigin := none, standing := none, failCause := none, restartPending := false,
        stage := none, holdUp := false, sizeStraps := 0#6, addrStraps := 0#2, geometry := none, format := none,
        recovery := none }
    time :=
      { tick := 0#32, nextBoundary := 1000000#32, sweeps := 0, active := Settings.defaults,
        staged := Settings.defaults }
    host := { entries := [], acceptSeq := 0#32, persists := [] }
    buf := { slots := [], drains := [], pressure := false, flush := none }
    map := MapController.unloaded
    mig := { current := none, retireQueue := [], backQueue := [], lastResult := none, levelCheck := none }
    media := MediaPort.empty
    jrn := JournalController.empty
    health := HealthMonitor.zero
    link := { response := none, flags := 0#17, enables := 0#17 }
    out := Outputs.none
    pending := [] }

/-! ### Block updates: each replaces one block and keeps the rest (their lemmas are in Laws/State.lean) -/

/-- The state with Unit Control replaced. -/
def State.setUnit (s : State) (x : UnitControl) : State := { s with unit := x }

/-- The state with the Time Base replaced. -/
def State.setTime (s : State) (x : TimeBase) : State := { s with time := x }

/-- The state with the Host Port replaced. -/
def State.setHost (s : State) (x : HostPort) : State := { s with host := x }

/-- The state with the Absorb Buffer replaced. -/
def State.setBuf (s : State) (x : AbsorbBuffer) : State := { s with buf := x }

/-- The state with the Map Controller replaced. -/
def State.setMap (s : State) (x : MapController) : State := { s with map := x }

/-- The state with the Migration Engine replaced. -/
def State.setMig (s : State) (x : MigrationEngine) : State := { s with mig := x }

/-- The state with the Media Port replaced. -/
def State.setMedia (s : State) (x : MediaPort) : State := { s with media := x }

/-- The state with the Journal Controller replaced. -/
def State.setJrn (s : State) (x : JournalController) : State := { s with jrn := x }

/-- The state with the Health Monitor replaced. -/
def State.setHealth (s : State) (x : HealthMonitor) : State := { s with health := x }

/-- The state with the Management Link replaced. -/
def State.setLink (s : State) (x : ManagementLink) : State := { s with link := x }

/-- The state with the outputs replaced. -/
def State.setOut (s : State) (x : Outputs) : State := { s with out := x }

/-- The state with the queue of waiting commands replaced. -/
def State.setPending (s : State) (x : List Instr) : State := { s with pending := x }

end Sys2Proof.Machine
end

