-- ==== Sys2Proof/Machine/Operands.lean ====
section
/-! DEFINITION. The operand forms of the block: line and frame arithmetic, bytes under a mask, flags of a line, little-endian fields, decoded medium data. -/

namespace Sys2Proof.Machine

/-! ### Lines and frames (R4) -/

/-- Lines of a frame. -/
def linesPerFrame : Nat := 64

/-- The frame of a line, logical or physical: the line divided by 64, rounded down (R4). -/
def frameOf (line : Nat) : Nat := line / 64

/-- The line index of a line within its frame (R4). -/
def indexOf (line : Nat) : Nat := line % 64

/-- Line `index` of frame `frame` (R4). -/
def lineAt (frame index : Nat) : Nat := frame * 64 + index

/-! ### Bytes of a line -/

/-- 64 zero bytes. -/
def zeroLine : LineData := Vector.replicate 64 0#8

/-- The bytes of `new` under `mask` laid over `old` (R24, R32, R53). -/
def overlay (mask : Flags64) (new old : LineData) : LineData :=
  Vector.ofFn fun i => if mask.getLsbD i.val then new[i] else old[i]

/-! ### Flags of a line -/

/-- Every flag set. -/
def fullMask : Flags64 := BitVec.allOnes 64

/-- The flag of index i alone. -/
def flagBit (i : Nat) : Flags64 := 1#64 <<< i

/-- Flag i set to v, the others kept. -/
def putFlag (m : Flags64) (i : Nat) (v : Bool) : Flags64 :=
  if v then m ||| flagBit i else m &&& ~~~ (flagBit i)

/-- The number of set flags. -/
def countFlags (m : Flags64) : Nat :=
  (List.range 64).countP fun i => m.getLsbD i

/-- The lowest set flag, if any. -/
def lowestFlag (m : Flags64) : Option Nat :=
  (List.range 64).find? fun i => m.getLsbD i

/-! ### Fields of link messages (R182) -/

/-- The field of `len` bytes that begins at byte `start` of the parameters. -/
def paramField (params : List Byte) (start len : Nat) : Nat :=
  leValue ((params.drop start).take len)

/-- Flags as a byte, flag 0 in bit 0. -/
def bitsByte (bs : List Bool) : Byte :=
  bs.foldr (fun b acc => (if b then 1#8 else 0#8) ||| (acc <<< 1)) 0#8

/-! ### What the medium is sent and delivers (R63 to R65) -/

/-- The metadata line an outcome delivers, if any: its 64 bytes read by the part's layout (R2, R120, R131, R132). -/
def ReadOutcome.metaLine (o : ReadOutcome LineData) : Option MetaLine := o.delivered.map Config.metaFormat.read

/-- The 64 bytes a payload stores. -/
def Payload.bytes : Payload → LineData
  | .data d => d
  | .metaLine m => Config.metaFormat.layout m

/-- The check bytes sent with an attempt (R63, R71): those of the data a MEDIA WRITE carries, none for a MEDIA READ. -/
def Attempt.checkBytes (a : Attempt) : List Byte :=
  match a.kind with
  | .read => []
  | .write p => eccCheckBytes p.bytes

end Sys2Proof.Machine
end

