-- ==== Sys2Proof/Machine/Flags.lean ====
section
/-! DEFINITION. Event flags and the attention output (R185, R186), comparison of wrapping counts (R22, R135, R170) and saturating counts (R11, R178). -/

namespace Sys2Proof.Machine

/-! ### Events -/

/-- The seventeen events (Table 11.10). -/
inductive Event where
  | stateChanged | healthAlert | sparesExhausted | poisonCreated | migrationDone | migrationAborted | flushDone
  | checkpointDone | checkpointFailed | settingsCommitted | settingsRejected | fenceStored | mediaFault
  | hostProtocol | journalStall | recoveryTruncated | formatDone
  deriving DecidableEq, Repr

/-- The bit position of an event (Table 11.10). -/
def Event.bit : Event → Nat
  | .stateChanged => 0 | .healthAlert => 1 | .sparesExhausted => 2 | .poisonCreated => 3 | .migrationDone => 4
  | .migrationAborted => 5 | .flushDone => 6 | .checkpointDone => 7 | .checkpointFailed => 8
  | .settingsCommitted => 9 | .settingsRejected => 10 | .fenceStored => 11 | .mediaFault => 12
  | .hostProtocol => 13 | .journalStall => 14 | .recoveryTruncated => 15 | .formatDone => 16

/-- The flag word with one event set. -/
def Event.flag (e : Event) : BitVec 17 := 1#17 <<< e.bit

/-- A block raises an event: its flag is set, and stays set if it was (R185). -/
def raise (e : Event) (s : State) : State :=
  s.setLink { s.link with flags := s.link.flags ||| e.flag }

/-- The flag of an event is set. -/
def State.raised (s : State) (e : Event) : Bool := s.link.flags.getLsbD e.bit

/-- The attention output is asserted (R186): some flag is both set and enabled; deasserted in RESET. -/
def State.attention (s : State) : Bool :=
  s.unit.state ≠ .reset && (s.link.flags &&& s.link.enables) ≠ 0#17

/-! ### Wrapping counts -/

/-- Accept sequence a lies at or below b (R22): (b - a) mod 2^32 is less than 2^31. -/
def seqLe (a b : Word32) : Bool := (b - a).toNat < 2147483648

/-- Checkpoint sequence b is higher than a (R135): (b - a) mod 2^32 lies from 1 to 2^31 - 1. -/
def seqHigher (b a : Word32) : Bool := 1 ≤ (b - a).toNat && (b - a).toNat < 2147483648

/-- The age of a tick value at a counter value (R26, R75): the difference mod 2^32. -/
def ageAt (now then_ : Word32) : Nat := (now - then_).toNat

/-! ### Saturating counts -/

/-- A count raised by 1 that stays at its highest value (R11, R178). -/
def satRaise (highest n : Nat) : Nat := if n < highest then n + 1 else n

/-- The highest value of a 32-bit count. -/
def max32 : Nat := 4294967295

/-- The highest value of a 16-bit count. -/
def max16 : Nat := 65535

/-- A 32-bit count in Nat raised by 1 with wrap (R2: the format count). -/
def wrapRaise (n : Nat) : Nat := (n + 1) % 4294967296

end Sys2Proof.Machine
end

