-- ==== Sys2Proof/Machine/Ops.lean ====
section
/-! DEFINITION. Operations every block uses: geometry figures (R1, R3), classes of unit state, responses sent at the ports. -/

namespace Sys2Proof.Machine

/-! ### Geometry figures (R1) -/

/-- N_P from the size straps (R1). -/
def strapsNP (v : BitVec 6) : Nat := (v.toNat + 1) * 1024

/-- C, the frames of one checkpoint area (R1). -/
def areaFrames (nP : Nat) : Nat := 5 * nP / 1024 + 1

/-- M, the metadata frames (R1). -/
def metaFrames (nP : Nat) : Nat := 1 + 2 * areaFrames nP + Config.journalFrames

/-- The greatest permitted S for N_P (R1). -/
def maxSpares (nP : Nat) : Nat := min 4096 (nP / 8)

/-- M of a geometry. -/
def metaCount (g : GeometryRecord) : Nat := metaFrames g.nP

/-- L of a geometry (R1). -/
def logicalCount (g : GeometryRecord) : Nat := g.nP - metaCount g - g.spares

/-- The record's fields lie in the ranges of R2. -/
def geometryInRange (g : GeometryRecord) : Bool :=
  g.nP % 1024 = 0 && 1024 ≤ g.nP && g.nP ≤ 65536 && 16 ≤ g.spares && g.spares ≤ maxSpares g.nP
    && 65536 ≤ g.retireWear && g.retireWear ≤ max32

/-- Image lines of one checkpoint area (R3): 64 for each frame but the header frame. -/
def imageLines (nP : Nat) : Nat := (areaFrames nP - 1) * 64

/-- First frame of a checkpoint area (Table 1.2). -/
def areaBase (nP : Nat) : Area → Nat
  | .a => 1
  | .b => areaFrames nP + 1

/-- Header line of a checkpoint area (R3). -/
def headerLine (nP : Nat) (area : Area) : Nat := lineAt (areaBase nP area) 0

/-- Image line k of a checkpoint area (R3). -/
def imageLineAt (nP : Nat) (area : Area) (k : Nat) : Nat := lineAt (areaBase nP area + 1) k

/-- Physical line of journal slot k (R3). -/
def slotLine (nP k : Nat) : Nat := lineAt (2 * areaFrames nP + 1 + k / 64) (k % 64)

/-- The area that does not hold the current checkpoint (section 7.5). -/
def Area.other : Area → Area
  | .a => .b
  | .b => .a

/-- The geometry record whose figures are in use (R1, R150). -/
def State.geometryInUse (s : State) : Option GeometryRecord :=
  if s.unit.standing = some .inUse then s.unit.geometry else none

/-- N_P in use, 0 when none is. -/
def State.nP (s : State) : Nat := (s.geometryInUse.map (·.nP)).getD 0

/-- L in use, 0 when none is. -/
def State.windowFrames (s : State) : Nat := (s.geometryInUse.map logicalCount).getD 0

/-- S in use, 0 when none is. -/
def State.spareCount (s : State) : Nat := (s.geometryInUse.map (·.spares)).getD 0

/-- RetireWear in use (R107). -/
def State.retireWear (s : State) : Nat := (s.geometryInUse.map (·.retireWear)).getD 0

/-! ### Unit states -/

/-- ONLINE or WRITE_PROTECTED. -/
def State.running (s : State) : Bool := s.unit.state = .online || s.unit.state = .writeProtected

/-- The states in which drains are issued and the engine and journal work: ONLINE, WRITE_PROTECTED, CLOSING, DRAIN_LOCK. -/
def State.working (s : State) : Bool := s.running || s.unit.state = .closing || s.unit.state = .drainLock

/-- The states in which host requests are answered NOT_READY (Table 3.3). -/
def State.notReady (s : State) : Bool :=
  s.unit.state = .unformatted || s.unit.state = .formatting || s.unit.state = .recovering || s.unit.state = .failed
    || (s.unit.state = .safe && !s.map.loaded)

/-- Unit Control enters a unit state: STATE_CHANGED is raised (R141). -/
def enterState (st : UnitState) (s : State) : State :=
  raise .stateChanged (s.setUnit { s.unit with state := st })

/-! ### Outputs -/

/-- A new happening begins: nothing has left the ports in it yet (log entry 4). -/
def beginHappening (s : State) : State := s.setOut Outputs.none

/-- The code field of a response (Table 11.13). -/
def HostCode.field : HostCode → BitVec 3
  | .data => 0#3 | .done => 1#3 | .fenced => 2#3 | .poison => 3#3 | .refused => 4#3 | .notReady => 5#3

/-- The fields of a response (Table 11.13): tag, code and data. -/
def HostResponse.fields (r : HostResponse) : BitVec 5 × BitVec 3 × LineData := (r.tag, r.code.field, r.data)

/-- The Host Port sends a response (Table 11.13): the data field holds 64 zero bytes on any response other than DATA (R188). -/
def sendHost (tag : BitVec 5) (code : HostCode) (data : LineData) (s : State) : State :=
  s.setOut { s.out with
    host := s.out.host ++ [{ tag := tag, code := code, data := if code = .data then data else zeroLine }] }

/-- The Media Port sends an attempt to the medium (R63). -/
def sendAttempt (op : InFlight) (s : State) : State :=
  s.setOut { s.out with
    media := s.out.media ++ [{ id := op.id, kind := op.request.kind, physical := op.request.physical }] }

/-- The response to a link request becomes the pending response; any earlier one is discarded (R183). -/
def respond (tag : Byte) (status : Status) (results : List Byte) (s : State) : State :=
  s.setLink { s.link with
    response := some { status := status, tag := tag, results := if status = .ok then results else [] } }

/-! ### Health counters (R178) -/

/-- The Health Monitor with one counter updated. -/
def bumpHealth (f : HealthMonitor → HealthMonitor) (s : State) : State := s.setHealth (f s.health)

end Sys2Proof.Machine
end

