-- ==== Sys2Proof/Machine/Map.lean ====
section
/-! DEFINITION. The Map Controller: line map, poison flags, hold marks, frame table, spare pool, fences, latch (ch1). -/

namespace Sys2Proof.Machine

/-! ### Line map (R4, R7) -/

/-- The map entry of a logical frame. -/
def State.entry? (s : State) (logical : Nat) : Option MapEntry := s.map.entries[logical]?

/-- The frame record of a physical frame. -/
def State.frame? (s : State) (physical : Nat) : Option FrameRecord := s.map.frames[physical]?

/-- The physical line of a logical line, through the map entry as it stands (R4). -/
def State.physicalOf (s : State) (line : Nat) : Nat :=
  lineAt ((s.entry? (frameOf line)).map (·.frame) |>.getD 0) (indexOf line)

/-- One map entry updated. -/
def updEntry (logical : Nat) (f : MapEntry → MapEntry) (s : State) : State :=
  s.setMap { s.map with entries := s.map.entries.modify logical f }

/-- One frame record updated. -/
def updFrame (physical : Nat) (f : FrameRecord → FrameRecord) (s : State) : State :=
  s.setMap { s.map with frames := s.map.frames.modify physical f }

/-! ### Poison flags (R8) -/

/-- The poison flag of a logical line. -/
def State.poisoned (s : State) (line : Nat) : Bool :=
  match s.entry? (frameOf line) with
  | some e => e.poison.getLsbD (indexOf line)
  | none => false

/-- The migration in progress is in COMMIT_WAIT for this logical frame. -/
def State.commitWaitOf (s : State) (logical : Nat) : Bool :=
  match s.mig.current with
  | some m => m.phase = .commitWait && m.logical = logical
  | none => false

/-- The migration in progress updated, if there is one. -/
def updMig (f : Migration → Migration) (s : State) : State :=
  s.setMig { s.mig with current := s.mig.current.map f }

/-- The Map Controller sets or clears the poison flag of a line (R8). While the line's frame is in COMMIT_WAIT the
pending poison mask takes the same change (R101). -/
def setPoison (line : Nat) (v : Bool) (s : State) : State :=
  let t := updEntry (frameOf line) (fun e => { e with poison := putFlag e.poison (indexOf line) v }) s
  if s.commitWaitOf (frameOf line) then
    updMig (fun m => { m with pendingPoison := putFlag m.pendingPoison (indexOf line) v }) t
  else t

/-! ### Hold marks (R9) -/

/-- The hold of an entry is clear: it carries neither mark (R9). -/
def MapEntry.holdClear (e : MapEntry) : Bool := !e.migrationMark && !e.failMark

/-- The hold of a logical frame is clear. A frame with no entry cannot be translated and is not clear. -/
def State.holdClear (s : State) (logical : Nat) : Bool :=
  match s.entry? logical with
  | some e => e.holdClear
  | none => false

/-- Place or remove the migration mark of a logical frame. -/
def setMigrationMark (logical : Nat) (v : Bool) (s : State) : State :=
  updEntry logical (fun e => { e with migrationMark := v }) s

/-- Place or remove the fail mark of a logical frame. -/
def setFailMark (logical : Nat) (v : Bool) (s : State) : State :=
  updEntry logical (fun e => { e with failMark := v }) s

/-- Remove every fail mark: entry to CLOSING (R9, R163). -/
def removeFailMarks (s : State) : State :=
  s.setMap { s.map with entries := s.map.entries.map fun e => { e with failMark := false } }

/-- Remove every hold mark: entry to DRAIN_LOCK (R9, R159). -/
def removeHoldMarks (s : State) : State :=
  s.setMap { s.map with entries := s.map.entries.map fun e => { e with migrationMark := false, failMark := false } }

/-! ### Frame table and spare pool (R10 to R15) -/

/-- The wear of a frame in a frame table. -/
def wearIn (frames : List FrameRecord) (f : Nat) : Nat := (frames[f]?.map (·.wear)).getD 0

/-- Frame a stands before frame b in the pool: ascending wear, then frame number (R13). -/
def poolBefore (frames : List FrameRecord) (a b : Nat) : Bool :=
  wearIn frames a < wearIn frames b || (wearIn frames a = wearIn frames b && a < b)

/-- Insertion at the place that keeps the order of R13 (R15). -/
def insertPool (frames : List FrameRecord) (f : Nat) : List Nat → List Nat
  | [] => [f]
  | x :: xs => if poolBefore frames f x then f :: x :: xs else x :: insertPool frames f xs

/-- The frames of one role, ascending. -/
def framesWith (role : Role) (frames : List FrameRecord) : List Nat :=
  (frames.zipIdx.filter fun p => p.1.role = role).map (·.2)

/-- The pool rebuilt from the frame table (R15, R153). -/
def buildPool (frames : List FrameRecord) : List Nat :=
  (framesWith .spare frames).foldr (insertPool frames) []

/-- A frame becomes SPARE: role, no owner, and its ordered place in the pool, in one happening (R15). -/
def joinPool (f : Nat) (s : State) : State :=
  let t := updFrame f (fun r => { r with role := .spare, owner := none }) s
  t.setMap { t.map with pool := insertPool t.map.frames f t.map.pool }

/-- A frame becomes RETIRED and loses its owner (Table 1.6). -/
def retireFrame (f : Nat) (s : State) : State :=
  updFrame f (fun r => { r with role := .retired, owner := none }) s

/-- The pool head becomes TARGET for a logical frame (R14). -/
def takeTarget (f : Nat) (rest : List Nat) (logical : Nat) (s : State) : State :=
  let t := s.setMap { s.map with pool := rest }
  updFrame f (fun r => { r with role := .target, owner := some logical }) t

/-! ### Fences (R16) -/

/-- The active fence: the volatile fence when one is present, the persistent fence otherwise (R16). -/
def State.activeFence (s : State) : Nat := s.map.volatileFence.getD s.map.fence

/-! ### Tables on loading (R20, Table 1.13) -/

/-- A MAPPED or other frame record with no history (R10). -/
def freshRecord (role : Role) (owner : Option Nat) : FrameRecord :=
  { role := role, owner := owner, wear := 0, corrected := 0, wanted := false, overdue := false }

/-- The frame table FORMAT makes (Table 1.2, R10). -/
def freshFrames (g : GeometryRecord) : List FrameRecord :=
  List.replicate (metaCount g) (freshRecord .metadata none)
    ++ (List.range (logicalCount g)).map (fun f => freshRecord .mapped (some f))
    ++ List.replicate (g.nP - metaCount g - logicalCount g) (freshRecord .spare none)

/-- The line map FORMAT makes: logical frame f at frame M + f, no poison, no hold (R7, Table 1.13). -/
def freshEntries (g : GeometryRecord) : List MapEntry :=
  (List.range (logicalCount g)).map fun f => { frame := metaCount g + f, poison := 0#64, migrationMark := false, failMark := false }

/-- The tables at the completion of FORMAT (Table 1.13). -/
def freshTables (g : GeometryRecord) : Tables :=
  { entries := freshEntries g, frames := freshFrames g, fence := logicalCount g, journaledFence := logicalCount g, unclean := 0 }

/-- The write-protect latch as recovery judges it: some MAPPED frame is retire-overdue (R19). -/
def overdueMapped (frames : List FrameRecord) : Bool :=
  frames.any fun r => r.role = .mapped && r.overdue

/-- Load tables: pool rebuilt, latch judged, no volatile fence, tables-loaded condition set (R15, R19, R20, R153). -/
def loadTables (t : Tables) (s : State) : State :=
  s.setMap
    { loaded := true, entries := t.entries, frames := t.frames, pool := buildPool t.frames, fence := t.fence,
      volatileFence := none, latch := overdueMapped t.frames, unclean := t.unclean }

/-- Unload the tables (R20). -/
def unloadTables (s : State) : State := s.setMap MapController.unloaded

end Sys2Proof.Machine
end

