-- ==== Sys2Proof/Machine/Media.lean ====
section
/-! DEFINITION. The Media Port: requests, same-line order, arbitration and promotion, attempts, withdrawal (ch4). -/

namespace Sys2Proof.Machine

/-! ### Requests (R66) -/

/-- A requester hands a request to the Media Port. In FAILED it ends without result at once (R78), and none is issued
in RESET. -/
def request (r : MediaRequest) (s : State) : State :=
  if s.unit.state = .failed || s.unit.state = .reset then s
  else s.setMedia { s.media with arriving := s.media.arriving ++ [r] }

/-- The classes of Table 4.2, highest first. -/
def classesHighestFirst : List MediaClass := [.journal, .hostRead, .drain, .checkpoint, .copy]

/-- The place in the tag table, which is in order of arrival, of the host request a host read is made for (R45, R66). -/
def hostRank (entries : List TagEntry) (r : MediaRequest) : Nat := entries.findIdx fun e => r.requester = .host e.tag

/-- A host read placed before the first of a list that does not stand before it. -/
def insertHostRead (entries : List TagEntry) (r : MediaRequest) : List MediaRequest → List MediaRequest
  | [] => [r]
  | x :: rest =>
    if hostRank entries r ≤ hostRank entries x then r :: x :: rest else x :: insertHostRead entries r rest

/-- Host reads begun in one happening, in the arrival order of their host requests (R57, R66). -/
def hostReadOrder (entries : List TagEntry) (rs : List MediaRequest) : List MediaRequest :=
  rs.foldr (insertHostRead entries) []

/-- Requests handed over in one happening, in arrival order (R66): by class, highest first; within a class as created,
host reads in the arrival order of their host requests. The checkpoint write and the record write that the one Journal
Controller hands over in one happening are ordered by class too, not as created (DESIGN CHOICE, log entry 37). -/
def inArrivalOrder (entries : List TagEntry) (rs : List MediaRequest) : List MediaRequest :=
  classesHighestFirst.flatMap fun c =>
    let ofClass := rs.filter fun r => r.cls = c
    if c = .hostRead then hostReadOrder entries ofClass else ofClass

/-- The requests of the present happening join the waiting requests (R66). -/
def joinWaiting (s : State) : State :=
  s.setMedia { s.media with
    waiting := s.media.waiting ++ inArrivalOrder s.host.entries s.media.arriving, arriving := [] }

/-! ### Grants (R67 to R70) -/

/-- The lowest free in-flight place (R67; which free place is taken: DESIGN CHOICE, log entry 11). -/
def freeMediaPlace (m : MediaPort) : Option (Fin 8) :=
  (List.finRange 8).find? fun p => !(m.inflight.any fun op => op.id.place = p)

/-- The grantable requests of a waiting list, in arrival order: no operation to the line is in flight and no earlier
request to the line waits (R68). -/
def grantableIn (inflight : List InFlight) : List MediaRequest → List MediaRequest → List MediaRequest
  | _, [] => []
  | earlier, r :: rest =>
    if inflight.any (fun op => op.request.physical = r.physical) || earlier.any (fun e => e.physical = r.physical) then
      grantableIn inflight (r :: earlier) rest
    else r :: grantableIn inflight (r :: earlier) rest

/-- The grantable requests (R68). -/
def grantables (m : MediaPort) : List MediaRequest := grantableIn m.inflight [] m.waiting

/-- The classes in the order the arbiter tries them (R69): promoted CHECKPOINT, promoted COPY, then Table 4.2. -/
def classOrder (m : MediaPort) : List MediaClass :=
  (if m.promoCheckpoint = Config.promotionLimit then [.checkpoint] else [])
    ++ (if m.promoCopy = Config.promotionLimit then [.copy] else [])
    ++ classesHighestFirst

/-- The request the arbiter chooses: of the first class that has a grantable request, the earliest (R69). -/
def chooseRequest (m : MediaPort) : Option MediaRequest :=
  (classOrder m).findSome? fun c => (grantables m).find? fun r => r.cls = c

/-- Some request of a class waits. -/
def classWaits (c : MediaClass) (waiting : List MediaRequest) : Bool := waiting.any fun r => r.cls = c

/-- The promotion count of class c after a grant to class g (R70). -/
def promoAfterGrant (c g : MediaClass) (waiting : List MediaRequest) (count : Nat) : Nat :=
  if g = c then 0
  else if classWaits c waiting then min Config.promotionLimit (count + 1)
  else 0

/-- The Media Port after granting request r in place p at tick now (R63, R67, R70, R75). -/
def grantIn (r : MediaRequest) (p : Fin 8) (now : Word32) (limit : Nat) (m : MediaPort) : MediaPort × InFlight :=
  let count := m.grantCounts[p] + 1
  let op : InFlight :=
    { id := { place := p, grant := count, retry := false }, request := r, sent := now, limit := limit }
  let rest := m.waiting.erase r
  ({ m with
      waiting := rest
      inflight := m.inflight ++ [op]
      grantCounts := m.grantCounts.set p count
      promoCheckpoint := promoAfterGrant .checkpoint r.cls rest m.promoCheckpoint
      promoCopy := promoAfterGrant .copy r.cls rest m.promoCopy }, op)

/-- One grant, when a place is free and a grantable request waits (R67); the Media Port issues none in RESET and FAILED (R63). -/
def grantOne (s : State) : Option State :=
  if s.unit.state = .reset || s.unit.state = .failed then none
  else
    match freeMediaPlace s.media, chooseRequest s.media with
    | some p, some r =>
      let g := grantIn r p s.time.tick s.time.active.mediaTimeout s.media
      some (sendAttempt g.2 (s.setMedia g.1))
    | _, _ => none

/-- Grants repeated, at most n of them (R67). -/
def grantUpTo : Nat → State → State
  | 0, s => s
  | n + 1, s =>
    match grantOne s with
    | some t => grantUpTo n t
    | none => s

/-- Every grant of the happening: the requests handed over take their arrival order, then places are filled (R66, R67). -/
def grantAll (s : State) : State := grantUpTo Config.mediaPlaces (joinWaiting s)

/-! ### Completions and timeouts (R63, R74 to R77) -/

/-- The operation whose attempt in flight carries this identity (R63). -/
def State.inFlight? (s : State) (id : AttemptId) : Option InFlight := s.media.inflight.find? fun op => op.id = id

/-- The operation of an identity leaves its place (R67). -/
def freePlaceOf (id : AttemptId) (s : State) : State :=
  s.setMedia { s.media with inflight := s.media.inflight.filter fun op => op.id ≠ id }

/-- The last media error record is replaced (R74). -/
def recordError (op : InFlight) (event : MediaEvent) (bits : Nat) (s : State) : State :=
  s.setMedia { s.media with
    lastError := some
      { physical := op.request.physical, isWrite := op.request.kind ≠ .read, cls := op.request.cls, event := event,
        bits := bits, tick := s.time.tick } }

/-- The operation in a place whose attempt has reached its deadline (R75). -/
def State.overdueAttempt? (s : State) (place : Fin 8) : Option InFlight :=
  s.media.inflight.find? fun op => op.id.place = place && decide (op.limit ≤ ageAt s.time.tick op.sent)

/-- A first attempt is replaced by the retry, in the same place with a new deadline (R76). -/
def retryAttempt (op : InFlight) (s : State) : State :=
  let again : InFlight :=
    { op with id := { op.id with retry := true }, sent := s.time.tick, limit := s.time.active.mediaTimeout }
  let t := recordError op .timeout 0 s
  sendAttempt again (t.setMedia { t.media with
    inflight := t.media.inflight.map fun o => if o.id = op.id then again else o })

/-! ### Withdrawal, failure and reset (R78 to R80) -/

/-- Waiting requests leave by withdrawal; a class with no request left waiting has its count set to 0 (R79). -/
def withdraw (p : MediaRequest → Bool) (s : State) : State :=
  let w := s.media.waiting.filter fun r => !(p r)
  let a := s.media.arriving.filter fun r => !(p r)
  s.setMedia { s.media with
    waiting := w
    arriving := a
    promoCheckpoint := if classWaits .checkpoint (w ++ a) then s.media.promoCheckpoint else 0
    promoCopy := if classWaits .copy (w ++ a) then s.media.promoCopy else 0 }

/-- Every operation in flight and every waiting request ends without result, at entry to FAILED (R78). -/
def endWithoutResult (s : State) : State :=
  s.setMedia { s.media with waiting := [], arriving := [], inflight := [], promoCheckpoint := 0, promoCopy := 0 }

/-- Checkpoint work is abandoned: its waiting request is withdrawn, and an operation in flight runs to an outcome that
changes no state of the Journal Controller (R134). -/
def orphanCheckpoint (s : State) : State :=
  let t := withdraw (fun r => r.requester = .checkpoint) s
  t.setMedia { t.media with
    inflight := t.media.inflight.map fun op =>
      if op.request.requester = .checkpoint then
        { op with request := { op.request with requester := .orphan } }
      else op }

/-- Unit Control's requests are withdrawn and its operation in flight is abandoned, its place becoming free (R79, R162). -/
def abandonUnitWork (s : State) : State :=
  let t := withdraw (fun r => r.requester = .unitControl) s
  t.setMedia { t.media with
    inflight := t.media.inflight.filter fun op => op.request.requester ≠ .unitControl }

/-- The engine has an operation in flight (R103). -/
def State.engineInFlight (s : State) : Bool := s.media.inflight.any fun op => op.request.requester = .engine

/-- The Media Port holds an operation waiting or in flight (R145). -/
def State.mediaBusy (s : State) : Bool :=
  !(s.media.waiting.isEmpty && s.media.arriving.isEmpty && s.media.inflight.isEmpty)

end Sys2Proof.Machine
end

