-- ==== Sys2Proof/Machine/Buffer.lean ====
section
/-! DEFINITION. The Absorb Buffer: slots, floor and barriers, pressure mode, drain order, drains (ch2). -/

namespace Sys2Proof.Machine

/-! ### Slots and lookups (R21, R25) -/

/-- The non-FREE slot of a line, if any (R25). -/
def State.slot? (s : State) (line : Nat) : Option Slot := s.buf.slots.find? fun sl => sl.line = line

/-- A FREE slot exists (R21). -/
def State.hasFreeSlot (s : State) : Bool := decide (s.buf.slots.length < Config.slotCount)

/-- The slot's valid mask is full. -/
def Slot.full (sl : Slot) : Bool := sl.valid = fullMask

/-- The slot of a line updated. -/
def updSlot (line : Nat) (f : Slot → Slot) (s : State) : State :=
  s.setBuf { s.buf with slots := s.buf.slots.map fun sl => if sl.line = line then f sl else sl }

/-- The drain in a place updated. -/
def updDrain (place : Fin 4) (f : Drain → Drain) (s : State) : State :=
  s.setBuf { s.buf with drains := s.buf.drains.map fun d => if d.place = place then f d else d }

/-- The drain in a place ends and frees its place (R27). -/
def endDrain (place : Fin 4) (s : State) : State :=
  s.setBuf { s.buf with drains := s.buf.drains.filter fun d => d.place ≠ place }

/-- The drain in a place. -/
def State.drain? (s : State) (place : Fin 4) : Option Drain := s.buf.drains.find? fun d => d.place = place

/-- The slot of a line is losing its writes: its drain is in phase LOSING (R39, R52). -/
def State.losing (s : State) (line : Nat) : Bool :=
  s.buf.drains.any fun d => d.line = line && d.phase = .losing

/-! ### Floor and barriers (R22) -/

/-- The lowest oldest sequence, in the order of R22, of a list of slots. -/
def floorOf : List Slot → Option Word32
  | [] => none
  | sl :: rest =>
    match floorOf rest with
    | none => some sl.oldest
    | some f => if seqLe sl.oldest f then some sl.oldest else some f

/-- The buffer's floor (R22). -/
def State.floor (s : State) : Option Word32 := floorOf s.buf.slots

/-- A barrier is satisfied when the floor is absent or lies above it (R22). -/
def State.satisfied (s : State) (barrier : Word32) : Bool :=
  match s.floor with
  | none => true
  | some f => !(seqLe f barrier)

/-! ### Pressure mode (R30) -/

/-- Pressure mode judged against a count of non-FREE slots and the two watermarks (R30). -/
def pressureAfter (high low count : Nat) (on : Bool) : Bool :=
  if on then !(decide (count ≤ low)) else decide (high ≤ count)

/-- The count of non-FREE slots is evaluated (R30). -/
def evalPressure (s : State) : State :=
  s.setBuf { s.buf with
    pressure := pressureAfter s.time.active.highWater s.time.active.lowWater s.buf.slots.length s.buf.pressure }

/-! ### Taking and merging (R23, R24) -/

/-- The slot a write takes from FREE (R23). The bytes outside the write's mask are zero bytes (DESIGN CHOICE, log
entry 35: R23 gives them no value and says that nothing uses them until a write sets them). -/
def newSlot (line : Nat) (mask : Flags64) (data : LineData) (tick seq : Word32) : Slot :=
  { line := line, draining := false, data := overlay mask data zeroLine, valid := mask, stamp := tick, oldest := seq,
    newest := seq, redirty := none, failedOnce := false }

/-- A slot after a merge (R24): bytes and flags gained, newest sequence replaced; a DRAINING slot gains the re-dirty
mark if it has none. -/
def mergedSlot (mask : Flags64) (data : LineData) (tick seq : Word32) (sl : Slot) : Slot :=
  { sl with
    data := overlay mask data sl.data
    valid := sl.valid ||| mask
    newest := seq
    redirty := if sl.draining && sl.redirty.isNone then some { tick := tick, seq := seq } else sl.redirty }

/-- An accepted write takes a FREE slot (R23). -/
def takeSlot (line : Nat) (mask : Flags64) (data : LineData) (seq : Word32) (s : State) : State :=
  evalPressure (s.setBuf { s.buf with slots := s.buf.slots ++ [newSlot line mask data s.time.tick seq] })

/-- An accepted write merges into its line's slot (R24). -/
def mergeWrite (line : Nat) (mask : Flags64) (data : LineData) (seq : Word32) (s : State) : State :=
  updSlot line (mergedSlot mask data s.time.tick seq) s

/-- A slot returns to FREE (R21, R30). -/
def freeSlot (line : Nat) (s : State) : State :=
  evalPressure (s.setBuf { s.buf with slots := s.buf.slots.filter fun sl => sl.line ≠ line })

/-! ### Due slots and drain order (R26 to R29) -/

/-- The slot's age has reached DrainAge (R28). -/
def State.ageDue (s : State) (sl : Slot) : Bool := decide (s.time.active.drainAge ≤ ageAt s.time.tick sl.stamp)

/-- Some condition of Table 2.2 holds for a slot (R28). -/
def State.due (s : State) (sl : Slot) : Bool :=
  s.ageDue sl || s.buf.pressure
    || s.host.persists.any (fun p => seqLe sl.oldest p.barrier)
    || (match s.buf.flush with
        | some b => seqLe sl.oldest b
        | none => false)
    || s.unit.state = .drainLock || s.unit.state = .closing

/-- The lowest free drain place (R27; which free place is taken: DESIGN CHOICE, log entry 11). -/
def freeDrainPlace (b : AbsorbBuffer) : Option (Fin 4) :=
  (List.finRange 4).find? fun p => !(b.drains.any fun d => d.place = p)

/-- A DIRTY slot is eligible but for the free drain place: its line's frame is not held (R27). -/
def State.eligible (s : State) (sl : Slot) : Bool := !sl.draining && s.holdClear (frameOf sl.line)

/-- Slot x stands before slot y in the drain order (R26): greater age, then lower oldest sequence. -/
def drainsBefore (now : Word32) (x y : Slot) : Bool :=
  ageAt now y.stamp < ageAt now x.stamp
    || (ageAt now x.stamp = ageAt now y.stamp && x.oldest ≠ y.oldest && seqLe x.oldest y.oldest)

/-- The first slot of a list in the drain order. -/
def firstInDrainOrder (now : Word32) : List Slot → Option Slot
  | [] => none
  | x :: rest =>
    match firstInDrainOrder now rest with
    | none => some x
    | some y => if drainsBefore now y x then some y else some x

/-- The slot the scheduler would drain next: the first eligible and due slot in drain order (R29). -/
def State.nextToDrain (s : State) : Option Slot :=
  firstInDrainOrder s.time.tick (s.buf.slots.filter fun sl => s.eligible sl && s.due sl)

/-- The drain's request for a MEDIA WRITE of the line it has formed. -/
def drainWriteRequest (d : Drain) (line : LineData) : MediaRequest :=
  { cls := .drain, requester := .drain d.place, kind := .write (.data line), physical := d.physical }

/-- The drain's fill read (R32). -/
def fillReadRequest (d : Drain) : MediaRequest :=
  { cls := .drain, requester := .drain d.place, kind := .read, physical := d.physical }

/-- The drain made at issue (R31) with the first phase of Table 2.3. In phase FILL, where the line is not yet formed, `formed`
holds the snapshot over zeros (DESIGN CHOICE, log entry 41). -/
def issuedDrain (p : Fin 4) (sl : Slot) (physical : Nat) (poisoned : Bool) : Drain :=
  { place := p, line := sl.line, snapshot := sl.data, snapMask := sl.valid, covered := sl.newest,
    physical := physical, poisoned := poisoned, formed := overlay sl.valid sl.data zeroLine,
    phase := if !sl.full && !poisoned then .fill else .write }

/-- A drain of a slot is issued (R31, Table 2.3): full or poisoned lines are written at once, a partial slot of an
unpoisoned line is filled first. -/
def issueDrain (p : Fin 4) (sl : Slot) (s : State) : State :=
  let d := issuedDrain p sl (s.physicalOf sl.line) (s.poisoned sl.line)
  let t := updSlot sl.line (fun x => { x with draining := true, redirty := none }) s
  let u := t.setBuf { t.buf with drains := t.buf.drains ++ [d] }
  request (if d.phase = .fill then fillReadRequest d else drainWriteRequest d d.formed) u

/-- One drain issued, when a place is free and a slot is eligible and due (R29); none outside the working states (Table 2.5). -/
def drainIssue? (s : State) : Option State :=
  if s.working then
    match freeDrainPlace s.buf, s.nextToDrain with
    | some p, some sl => some (issueDrain p sl s)
    | _, _ => none
  else none

/-- The drain of a line of this logical frame is in phase FILL, POISON_WAIT, WRITE or LOSING (R88). -/
def State.frameDraining (s : State) (logical : Nat) : Bool :=
  s.buf.drains.any fun d => frameOf d.line = logical && d.phase ≠ .clearWait

/-- A slot that returns to DIRTY by its re-dirty mark: the mark's tick and sequence become stamp and oldest (R36, R39). -/
def redirtied (mark : RedirtyMark) (sl : Slot) : Slot :=
  { sl with draining := false, stamp := mark.tick, oldest := mark.seq, redirty := none, failedOnce := false }

/-- A drained slot becomes FREE, or DIRTY by its re-dirty mark (R36, R39). -/
def finishSlot (line : Nat) (s : State) : State :=
  match s.slot? line with
  | some sl =>
    match sl.redirty with
    | some mark => updSlot line (redirtied mark) s
    | none => freeSlot line s
  | none => s

/-- A slot's stamp and the tick of its re-dirty mark, each advanced by one tick where it stands 2^30 ticks behind (R26). -/
def clampSlot (now : Word32) (sl : Slot) : Slot :=
  { sl with
    stamp := if ageAt now sl.stamp = Config.stampClamp then sl.stamp + 1 else sl.stamp
    redirty := sl.redirty.map fun m =>
      { m with tick := if ageAt now m.tick = Config.stampClamp then m.tick + 1 else m.tick } }

end Sys2Proof.Machine
end

