-- ==== Sys2Proof/Machine/HostPort.lean ====
section
/-! DEFINITION. The Host Port: tag table, answers by unit state, same-line order, READ service, WRITE acceptance, wait queue, PERSIST (ch3). -/

namespace Sys2Proof.Machine

/-! ### Tag table (R45) -/

/-- The entry of a tag. -/
def State.tagEntry? (s : State) (tag : BitVec 5) : Option TagEntry := s.host.entries.find? fun e => e.tag = tag

/-- A tag's entry is occupied. -/
def State.occupied (s : State) (tag : BitVec 5) : Bool := s.host.entries.any fun e => e.tag = tag

/-- A request arrives in the tag table, last in the order of arrival. -/
def addEntry (e : TagEntry) (s : State) : State := s.setHost { s.host with entries := s.host.entries ++ [e] }

/-- The entry of a tag becomes free. -/
def removeEntry (tag : BitVec 5) (s : State) : State :=
  s.setHost { s.host with entries := s.host.entries.filter fun e => e.tag ≠ tag }

/-- The standing of a tag's entry. -/
def setStanding (tag : BitVec 5) (st : TagStanding) (s : State) : State :=
  s.setHost { s.host with
    entries := s.host.entries.map fun e => if e.tag = tag then { e with standing := st } else e }

/-- The entry is a READ in service (R50). -/
def TagEntry.inService (e : TagEntry) : Bool :=
  e.kind = .read && (match e.standing with
    | .reading _ => true
    | _ => false)

/-- The entry waits: a write in the wait queue, or a request held behind an earlier request to its line (R45). -/
def TagEntry.waits (e : TagEntry) : Bool := e.standing = .waiting

/-- The entry is a write that waits. -/
def TagEntry.waitingWrite (e : TagEntry) : Bool := e.kind = .write && e.waits

/-- The entry is in the write wait queue: a waiting write with a non-empty mask (R55, R57). -/
def TagEntry.inWaitQueue (e : TagEntry) : Bool := e.waitingWrite && e.mask ≠ 0#64

/-- The entries that arrived before a tag's entry. -/
def entriesBefore (tag : BitVec 5) (entries : List TagEntry) : List TagEntry :=
  entries.takeWhile fun e => e.tag ≠ tag

/-- A READ of this line that arrived before a tag's entry is in service (R50). -/
def State.earlierRead (s : State) (tag : BitVec 5) (line : Nat) : Bool :=
  (entriesBefore tag s.host.entries).any fun e => e.line = line && e.inService

/-! ### Answers -/

/-- The response to a tag is sent, and its entry becomes free (R45). -/
def answer (tag : BitVec 5) (code : HostCode) (data : LineData) (s : State) : State :=
  sendHost tag code data (removeEntry tag s)

/-- Tags of held answers that may be sent: no READ of their line that arrived before them is in service (R50). -/
def releasableIn : List TagEntry → List TagEntry → List (BitVec 5)
  | _, [] => []
  | before, e :: rest =>
    if e.standing = .answerHeld && !(before.any fun b => b.line = e.line && b.inService) then
      e.tag :: releasableIn (e :: before) rest
    else releasableIn (e :: before) rest

/-- Held DONE answers whose earlier READs are answered are sent, in arrival order (R50). -/
def releaseHeld (s : State) : State :=
  (releasableIn [] s.host.entries).foldl (fun t tag => answer tag .done zeroLine t) s

/-- A READ is answered, and held answers of later writes to its line follow directly (R50). -/
def answerRead (tag : BitVec 5) (code : HostCode) (data : LineData) (s : State) : State :=
  releaseHeld (answer tag code data s)

/-! ### READ service (R51 to R53) -/

/-- The MEDIA READ of a host READ (R53). -/
def hostReadRequest (tag : BitVec 5) (physical : Nat) : MediaRequest :=
  { cls := .hostRead, requester := .host tag, kind := .read, physical := physical }

/-- The service of a READ begins (R51, Table 3.4). An answer it can give at once leaves at once, before the held DONE of
an earlier WRITE of the line that waits behind a still older READ (DESIGN CHOICE, log entry 36: R50 asks for answers in
arrival order, and holds no READ behind a READ). -/
def serveRead (tag : BitVec 5) (line : Nat) (s : State) : State :=
  match (s.slot? line).filter Slot.full with
  | some sl => answerRead tag .data sl.data s
  | none =>
    if s.losing line then setStanding tag (.reading true) s
    else if s.poisoned line then answerRead tag .poison zeroLine s
    else request (hostReadRequest tag (s.physicalOf line)) (setStanding tag (.reading false) s)

/-- A READ that waited for its line's writes to be lost is decided again (R52). -/
def decideAfterLoss (tag : BitVec 5) (line : Nat) (s : State) : State :=
  match (s.slot? line).filter Slot.full with
  | some sl => answerRead tag .data sl.data s
  | none => answerRead tag .poison zeroLine s

/-- Every READ that waited for this line's loss is decided (R52), in arrival order (DESIGN CHOICE, log entry 42: R50 lets two
READs of a line be answered in either order). -/
def endLossWaits (line : Nat) (s : State) : State :=
  (s.host.entries.filter fun e => e.line = line && e.kind = .read && e.standing = .reading true).foldl
    (fun t e => decideAfterLoss e.tag line t) s

/-- The decision at the return of a medium read (R53, Table 3.5). -/
def returnRead (tag : BitVec 5) (line : Nat) (outcome : ReadOutcome LineData) (s : State) : State :=
  match (s.slot? line).filter Slot.full with
  | some sl => answerRead tag .data sl.data s
  | none =>
    if s.losing line then setStanding tag (.reading true) s
    else if s.poisoned line then answerRead tag .poison zeroLine s
    else
      match outcome.delivered with
      | some d =>
        let laid := match s.slot? line with
          | some sl => overlay sl.valid sl.data d
          | none => d
        answerRead tag .data laid s
      | none => answerRead tag .poison zeroLine s

/-! ### WRITE acceptance (R55 to R58) -/

/-- The sequence bound of R56 holds: the floor is present and the counter stands 2^31 - 1 above it. -/
def State.boundHolds (s : State) : Bool :=
  match s.floor with
  | some f => (s.host.acceptSeq - f).toNat = 2147483647
  | none => false

/-- A write with a non-empty mask can be accepted at once (R56). -/
def State.canAccept (s : State) (line : Nat) : Bool :=
  !s.boundHolds && ((s.slot? line).isSome || s.hasFreeSlot)

/-- A taken write is answered DONE, or its DONE is held behind an earlier READ of its line (R50). A held entry keeps its byte
mask and no data (R45); 64 zero bytes stand for none (DESIGN CHOICE, log entry 33). -/
def finishWrite (tag : BitVec 5) (line : Nat) (s : State) : State :=
  if s.earlierRead tag line then
    s.setHost { s.host with
      entries := s.host.entries.map fun e =>
        if e.tag = tag then { e with standing := .answerHeld, data := zeroLine } else e }
  else answer tag .done zeroLine s

/-- A write is accepted (R56, R58): the counter rises by 1, the bytes merge or take a slot under the new sequence, and
the write is answered or its answer held. -/
def acceptWrite (e : TagEntry) (s : State) : State :=
  let seq := s.host.acceptSeq + 1
  let t := s.setHost { s.host with acceptSeq := seq }
  let u := if (t.slot? e.line).isSome then mergeWrite e.line e.mask e.data seq t
    else takeSlot e.line e.mask e.data seq t
  finishWrite e.tag e.line u

/-- A waiting request whose place in its line's order has come can be taken now (R50, R55, R56). -/
def State.takable (s : State) (e : TagEntry) : Bool :=
  match e.kind with
  | .read => true
  | .write => e.mask = 0#64 || s.canAccept e.line
  | .persist => false

/-- A waiting request is taken (R50): a READ begins its service, an empty-mask write is answered, a write is accepted. -/
def takeRequest (e : TagEntry) (s : State) : State :=
  match e.kind with
  | .read => serveRead e.tag e.line s
  | .write => if e.mask = 0#64 then finishWrite e.tag e.line s else acceptWrite e s
  | .persist => s

/-- The first waiting request of a line, in arrival order. -/
def State.firstWaiting (s : State) (line : Nat) : Option TagEntry :=
  s.host.entries.find? fun e => e.line = line && e.waits

/-- The waiting requests of a line are taken in arrival order while the first of them can be taken (R57). -/
def takeLine (line : Nat) : Nat → State → State
  | 0, s => s
  | n + 1, s =>
    match s.firstWaiting line with
    | some e => if s.takable e then takeLine line n (takeRequest e s) else s
    | none => s

/-- The oldest waiting write that is first on its line and can be accepted (R57). -/
def State.nextWaiting (s : State) : Option TagEntry :=
  s.host.entries.find? fun e =>
    e.inWaitQueue && s.canAccept e.line && decide (s.firstWaiting e.line = some e)

/-- A waiting write gets its place, and its line's followers are taken (R57), in ONLINE. -/
def waitQueueTake? (s : State) : Option State :=
  if s.unit.state = .online then
    match s.nextWaiting with
    | some e => some (takeLine e.line Config.hostTags s)
    | none => none
  else none

/-! ### PERSIST (R59 to R61) -/

/-- A PERSIST is taken (R59): its barrier is the accept sequence counter; it is answered DONE if that is satisfied,
and joins the pending list otherwise. -/
def takePersist (tag : BitVec 5) (s : State) : State :=
  let barrier := s.host.acceptSeq
  if s.satisfied barrier then answer tag .done zeroLine s
  else
    let t := setStanding tag .persistPending s
    t.setHost { t.host with persists := t.host.persists ++ [{ tag := tag, barrier := barrier }] }

/-- The pending list has room (R59). -/
def State.persistRoom (s : State) : Bool := decide (s.host.persists.length < Config.persistPlaces)

/-- The PERSIST to be taken next: the first in PERSIST_WAITING, when no write that arrived before it waits and the
pending list has room (R59). -/
def persistTake? (s : State) : Option State :=
  if s.notReady || s.unit.state = .reset then none
  else
    match s.host.entries.find? fun e => e.standing = .persistWaiting with
    | some e =>
      if s.persistRoom && !((entriesBefore e.tag s.host.entries).any TagEntry.waitingWrite) then
        some (takePersist e.tag s)
      else none
    | none => none

/-- The head of the pending list is answered DONE and removed when its barrier is satisfied (R60). -/
def persistDone? (s : State) : Option State :=
  if s.unit.state = .failed then none
  else
    match s.host.persists with
    | p :: rest =>
      if s.satisfied p.barrier then
        some (answer p.tag .done zeroLine (s.setHost { s.host with persists := rest }))
      else none
    | [] => none

/-- The flush barrier is satisfied: FLUSH_DONE is raised and the barrier removed (R42); it stands in FAILED. -/
def flushDone? (s : State) : Option State :=
  if s.unit.state = .failed then none
  else
    match s.buf.flush with
    | some b => if s.satisfied b then some (raise .flushDone (s.setBuf { s.buf with flush := none })) else none
    | none => none

/-! ### Arrival (R46, R47, R49) -/

/-- The line lies at or above the active fence (R49). -/
def State.fenced (s : State) (line : Nat) : Bool := decide (s.activeFence ≤ frameOf line)

/-- An earlier write to the line is waiting (R50). -/
def State.earlierWriteWaits (s : State) (line : Nat) : Bool :=
  s.host.entries.any fun e => e.line = line && e.waitingWrite

/-- A READ that has passed the checks: held behind a waiting write to its line, or served (R50, R51); an earlier write
whose answer alone is held does not hold it (log entry 36). -/
def arriveRead (tag : BitVec 5) (line : Nat) (s : State) : State :=
  let e : TagEntry :=
    { tag := tag, kind := .read, line := line, mask := 0#64, data := zeroLine, standing := .waiting }
  if s.earlierWriteWaits line then addEntry e s else serveRead tag line (addEntry e s)

/-- A WRITE that has passed the checks in ONLINE: held behind a waiting write to its line, taken, or queued (R50, R55, R56). -/
def arriveWrite (tag : BitVec 5) (line : Nat) (mask : Flags64) (data : LineData) (s : State) : State :=
  let e : TagEntry := { tag := tag, kind := .write, line := line, mask := mask, data := data, standing := .waiting }
  if s.earlierWriteWaits line then addEntry e s
  else if (addEntry e s).takable e then takeRequest e (addEntry e s)
  else addEntry e s

/-- A PERSIST that has passed the checks: taken when the three conditions of R59 hold, waiting otherwise. -/
def arrivePersist (tag : BitVec 5) (line : Nat) (s : State) : State :=
  let e : TagEntry :=
    { tag := tag, kind := .persist, line := line, mask := 0#64, data := zeroLine, standing := .persistWaiting }
  if s.persistRoom && !(s.host.entries.any TagEntry.waitingWrite)
      && !(s.host.entries.any fun x => x.standing = .persistWaiting) then
    takePersist tag (addEntry e s)
  else addEntry e s

/-- The checks every arriving request meets before its kind is looked at (R46, R47): not received in RESET, discarded
on an occupied tag with HOST_PROTOCOL, NOT_READY where no tables are served. `none`: go on by kind. -/
def arrivalCheck (tag : BitVec 5) (s : State) : Option State :=
  if s.unit.state = .reset then some s
  else if s.occupied tag then some (raise .hostProtocol s)
  else if s.notReady then some (sendHost tag .notReady zeroLine s)
  else none

/-- A READ arrives (R46, R47, R49, R51). -/
def hostReadArrives (tag : BitVec 5) (line : Nat) (s : State) : State :=
  match arrivalCheck tag s with
  | some t => t
  | none => if s.fenced line then sendHost tag .fenced zeroLine s else arriveRead tag line s

/-- A WRITE arrives (R46, R47, R49, R56). -/
def hostWriteArrives (tag : BitVec 5) (line : Nat) (mask : Flags64) (data : LineData) (s : State) : State :=
  match arrivalCheck tag s with
  | some t => t
  | none =>
    if s.fenced line then sendHost tag .fenced zeroLine s
    else if s.unit.state = .online then arriveWrite tag line mask data s
    else sendHost tag .refused zeroLine s

/-- A PERSIST arrives; its line is not examined (R46, R47, R59). -/
def hostPersistArrives (tag : BitVec 5) (line : Nat) (s : State) : State :=
  match arrivalCheck tag s with
  | some t => t
  | none => arrivePersist tag line s

/-- A request whose kind code names no kind is discarded with HOST_PROTOCOL raised (R46). -/
def hostUnknownArrives (s : State) : State :=
  if s.unit.state = .reset then s else raise .hostProtocol s

/-! ### Changes of unit state (R48) -/

/-- Every waiting write is answered REFUSED in order of arrival; READs held behind them are then served (R48).
PERSISTs whose earlier writes are gone are taken by `persistTake?` in the same happening. -/
def refuseWaiting (s : State) : State :=
  let t := (s.host.entries.filter TagEntry.waitingWrite).foldl (fun u e => answer e.tag .refused zeroLine u) s
  (t.host.entries.filter TagEntry.waits).foldl (fun u e => takeRequest e u) t

/-- Every request in the table is answered at entry to FAILED: held answers DONE, all others NOT_READY (R48). -/
def answerAllFailed (s : State) : State :=
  let t := s.host.entries.foldl
    (fun u e => sendHost e.tag (if e.standing = .answerHeld then .done else .notReady) zeroLine u) s
  t.setHost { t.host with entries := [], persists := [] }

end Sys2Proof.Machine
end

