-- ==== Sys2Proof/Machine/Journal.lean ====
section
/-! DEFINITION. The Journal Controller: staging queue and waiting creators, record writes into the ring, checkpoints and their image (ch7). -/

namespace Sys2Proof.Machine

/-! ### Staging queue (R121, R122) -/

/-- The staging queue has a place. -/
def State.stagingRoom (s : State) : Bool := decide (s.jrn.staging.length < Config.stagingPlaces)

/-- A record joins the tail of the staging queue, with no sequence number yet (R121). -/
def stageRecord (c : Creator) (r : JournalRecord) (s : State) : State :=
  s.setJrn { s.jrn with staging := s.jrn.staging ++ [{ creator := c, record := r, seq := none }] }

/-- A creator is waiting (R122). -/
def State.creatorWaits (s : State) (c : Creator) : Bool := s.jrn.waiters.any fun w => w.creator = c

/-- A creator becomes a waiting creator, or adds a record to those it keeps (R122); JOURNAL_STALL is raised when no
creator was waiting. That the POISON_SET records of one late line share a waiting place is the model's (DESIGN CHOICE, log
entry 40: R122 foresees several records of one waiting creator for the Migration Engine only). -/
def waitWith (c : Creator) (r : JournalRecord) (s : State) : State :=
  if s.creatorWaits c then
    s.setJrn { s.jrn with
      waiters := s.jrn.waiters.map fun w => if w.creator = c then { w with records := w.records ++ [r] } else w }
  else
    let t := s.setJrn { s.jrn with waiters := s.jrn.waiters ++ [{ creator := c, records := [r] }] }
    if s.jrn.waiters.isEmpty then raise .journalStall t else t

/-- The record would join the queue at once (R121). -/
def State.joinsAtOnce (s : State) : Bool := s.stagingRoom && s.jrn.waiters.isEmpty

/-- A creator hands a record to the Journal Controller (R121, R122). -/
def handOver (c : Creator) (r : JournalRecord) (s : State) : State :=
  if s.joinsAtOnce then stageRecord c r s else waitWith c r s

/-- What the joining of a waiting creator's record does to the creator: a drain in CLEAR_WAIT ends (R37). -/
def onJoined (c : Creator) (r : JournalRecord) (s : State) : State :=
  match c, r with
  | .drain p, .poisonClear _ => endDrain p s
  | _, _ => s

/-- When the queue has a place, the first waiting creator's record joins its tail (R122); in FAILED creators keep waiting. -/
def creatorJoin? (s : State) : Option State :=
  if s.stagingRoom && s.unit.state ≠ .failed then
    match s.jrn.waiters with
    | [] => none
    | w :: rest =>
      match w.records with
      | [] => some (s.setJrn { s.jrn with waiters := rest })
      | r :: more =>
        let t := s.setJrn { s.jrn with
          waiters := if more.isEmpty then rest else { w with records := more } :: rest }
        some (onJoined w.creator r (stageRecord w.creator r t))
  else none

/-! ### The ring (R123, R126) -/

/-- Used slots of the ring (R126). -/
def ringUsed (head tail : Nat) (full : Bool) : Nat :=
  if full then Config.ringSlots else (head + Config.ringSlots - tail) % Config.ringSlots

/-- Used slots as they stand. -/
def State.ringUsed (s : State) : Nat := Machine.ringUsed s.jrn.head s.jrn.tail s.jrn.full

/-- The slot after slot k (R123). -/
def nextSlot (k : Nat) : Nat := (k + 1) % Config.ringSlots

/-! ### Checkpoints (R127 to R131) -/

/-- No image: the fields of a checkpoint in phase STARTING (DESIGN CHOICE, log entry 41). -/
def Image.none : Image := { entries := [], frames := [], fence := 0, unclean := 0 }

/-- A checkpoint starts (R128, R129): phase STARTING, the other area, the next checkpoint sequence. Until the fix takes
them, its position stands at sequence 0 and slot 0, its image is empty and its counts are 0 (DESIGN CHOICE, log entry 41: R129
gives them no value, and nothing shows them). -/
def startCheckpoint (clean : Bool) (s : State) : State :=
  let area := (s.jrn.descriptor.map fun d => d.area.other).getD .a
  let seq := (s.jrn.descriptor.map fun d => d.seq + 1).getD 1#32
  s.setJrn { s.jrn with
    checkpoint := some
      { phase := .starting, area := area, seq := seq, posSeq := 0#32, posSlot := 0, clean := clean,
        linesWritten := 0, image := Image.none, imageCheck := 0#32, slotsTaken := 0 } }

/-- A trigger starts a checkpoint with its clean flag clear, unless one is in progress (R128). -/
def triggerCheckpoint (s : State) : State :=
  if s.jrn.checkpoint.isNone then startCheckpoint false s else s

/-- The ring trigger (R128): used stands at 1,536 or more in ONLINE, WRITE_PROTECTED or CLOSING. -/
def ringTrigger (s : State) : State :=
  if Config.ringTrigger ≤ s.ringUsed && (s.running || s.unit.state = .closing) then triggerCheckpoint s else s

/-- The records not yet in the journal: staged, waiting to be rewritten, or held by a waiting creator (R130). -/
def JournalController.unissued (j : JournalController) : List JournalRecord :=
  j.staging.map (·.record) ++ j.waiters.flatMap (·.records)

/-- Lines with a POISON_CLEAR not yet issued (R130). -/
def clearsOf (rs : List JournalRecord) : List Nat :=
  rs.filterMap fun
    | .poisonClear line => some line
    | _ => none

/-- Frames with a SPARE_RETIRE not yet issued (R130). -/
def spareRetiresOf (rs : List JournalRecord) : List Nat :=
  rs.filterMap fun
    | .spareRetire f => some f
    | _ => none

/-- The poison mask of an entry as the image shows it (R130). -/
def imagePoison (clears : List Nat) (logical : Nat) (poison : Flags64) : Flags64 :=
  clears.foldl (fun m line => if frameOf line = logical then putFlag m (indexOf line) true else m) poison

/-- A frame record as the image shows it (R130): a TARGET frame, and a frame whose SPARE_RETIRE has not been issued,
is SPARE with no owner. -/
def imageFrame (retires : List Nat) (number : Nat) (r : FrameRecord) : FrameRecord :=
  if r.role = .target || retires.contains number then { r with role := .spare, owner := none } else r

/-- The image fixed from the tables (R130). -/
def imageOf (s : State) : Image :=
  let un := s.jrn.unissued
  { entries := s.map.entries.zipIdx.map fun p => (p.1.frame, imagePoison (clearsOf un) p.2 p.1.poison)
    frames := s.map.frames.zipIdx.map fun p => imageFrame (spareRetiresOf un) p.2 p.1
    fence := s.jrn.fence
    unclean := s.map.unclean }

/-- Map entries in one image line (log entry 7). -/
def entriesPerLine : Nat := 6

/-- Frame records in one image line (log entry 7). -/
def framesPerLine : Nat := 7

/-- Image lines that hold map entries (log entry 7). -/
def Image.entryLines (i : Image) : Nat := (i.entries.length + 5) / entriesPerLine

/-- The items of image line k (log entry 7): the fence and the unclean count in line 0, then the map entries ascending,
then the frame records ascending. -/
def Image.itemsOf (i : Image) (k : Nat) : List ImageItem :=
  if k = 0 then [.fence i.fence, .uncleanCount i.unclean]
  else if k ≤ i.entryLines then
    ((i.entries.drop (entriesPerLine * (k - 1))).take entriesPerLine).map fun e => .entry e.1 e.2
  else ((i.frames.drop (framesPerLine * (k - 1 - i.entryLines))).take framesPerLine).map .frame

/-- Image line k of an image (R131, log entry 7). -/
def Image.line (i : Image) (k : Nat) : MetaLine := .image (i.itemsOf k)

/-- The request of a checkpoint write (R131, R132). -/
def checkpointRequest (physical : Nat) (m : MetaLine) : MediaRequest :=
  { cls := .checkpoint, requester := .checkpoint, kind := .write (.metaLine m), physical := physical }

/-- The sequence number the next write into the head slot will carry (R129): that of a record waiting to be rewritten,
or the next sequence number. -/
def JournalController.positionSeq (j : JournalController) : Word32 :=
  match j.staging with
  | r :: _ => r.seq.getD j.nextSeq
  | [] => j.nextSeq

/-- The image and position are fixed once no record write is in flight; the first image line is requested (R129 to R131). -/
def imageFix? (s : State) : Option State :=
  match s.jrn.checkpoint with
  | some c =>
    if c.phase = .starting && !s.jrn.writing then
      let img := imageOf s
      let c' := { c with
        phase := .image, posSeq := s.jrn.positionSeq, posSlot := s.jrn.head, image := img }
      some (request (checkpointRequest (imageLineAt s.nP c.area 0) (img.line 0))
        (s.setJrn { s.jrn with checkpoint := some c' }))
    else none
  | none => none

/-- The header written for a checkpoint (R132). -/
def headerOf (c : Checkpoint) : CheckpointHeader :=
  { seq := c.seq, posSeq := c.posSeq, posSlot := c.posSlot, clean := c.clean, imageCheck := c.imageCheck }

/-! ### Writing records (R123) -/

/-- The request of a record write (R123). -/
def recordRequest (physical : Nat) (seq : Word32) (r : JournalRecord) : MediaRequest :=
  { cls := .journal, requester := .journal, kind := .write (.metaLine (.record seq r true)), physical := physical }

/-- A checkpoint in STARTING holds record writes back (R129). -/
def JournalController.startingHolds (j : JournalController) : Bool :=
  match j.checkpoint with
  | some c => c.phase = .starting
  | none => false

/-- The conditions of R123 hold. -/
def State.mayIssueRecord (s : State) : Bool :=
  !s.jrn.writing && !s.jrn.full && !s.jrn.startingHolds && (s.working || s.unit.state = .safe)

/-- The journaled fence after a record's first issue (R123). -/
def journaledAfter (r : JournalRecord) (first : Bool) (fence : Nat) : Nat :=
  match r with
  | .fenceSet v => if first then v else fence
  | _ => fence

/-- The record at the head of the staging queue is issued into the head slot (R123, R126). -/
def issueRecord (r : StagedRecord) (rest : List StagedRecord) (s : State) : State :=
  let j := s.jrn
  let seq := r.seq.getD j.nextSeq
  let head := nextSlot j.head
  let j' := { j with
    staging := { r with seq := some seq } :: rest
    writing := true
    head := head
    full := decide (head = j.tail)
    nextSeq := if r.seq.isNone then j.nextSeq + 1 else j.nextSeq
    fence := journaledAfter r.record r.seq.isNone j.fence
    checkpoint := j.checkpoint.map fun c => { c with slotsTaken := c.slotsTaken + 1 } }
  ringTrigger (request (recordRequest (slotLine s.nP j.head) seq r.record) (s.setJrn j'))

/-- The head record is issued when the conditions of R123 hold. -/
def recordIssue? (s : State) : Option State :=
  match s.jrn.staging with
  | r :: rest => if s.mayIssueRecord then some (issueRecord r rest s) else none
  | [] => none

/-- A checkpoint in progress is abandoned with no event (R134). -/
def abandonCheckpoint (s : State) : State :=
  let t := s.setJrn { s.jrn with checkpoint := none }
  if s.jrn.checkpoint.isSome then orphanCheckpoint t else t

/-- Nothing of the migration, the map or the journal is left to join or be written: the last two conditions of R160
and the held records of its second and third. -/
def State.journalIdle (s : State) : Bool := s.jrn.staging.isEmpty && s.jrn.waiters.isEmpty

end Sys2Proof.Machine
end

