-- ==== Sys2Proof/Machine/Wear.lean ====
section
/-! DEFINITION. The migration queue (R82 to R86), retire causes (R107 to R111), the claims of media outcomes on the frame records (R11, R72 to R74), the wear sweep and the level check (R112 to R117). -/

namespace Sys2Proof.Machine

/-! ### The migration queue (R82, R83) -/

/-- The three retire reasons (Table 5.1). -/
def Reason.retire : Reason → Bool
  | .retireWear => true
  | .retireError => true
  | .retireProgram => true
  | .level => false
  | .manual => false

/-- The number of queued requests (R82). -/
def MigrationEngine.queued (m : MigrationEngine) : Nat := m.retireQueue.length + m.backQueue.length

/-- The queue holds fewer than 8 requests (R82). -/
def MigrationEngine.room (m : MigrationEngine) : Bool := decide (m.queued < Config.migrationQueue)

/-- A list of requests names a logical frame. -/
def names (logical : Nat) (q : List MigRequest) : Bool := q.any fun r => r.logical = logical

/-- A logical frame is queued (R82). -/
def MigrationEngine.isQueued (m : MigrationEngine) (logical : Nat) : Bool :=
  names logical m.retireQueue || names logical m.backQueue

/-- A logical frame is the frame of the migration in progress. -/
def MigrationEngine.isMoving (m : MigrationEngine) (logical : Nat) : Bool :=
  match m.current with
  | some c => c.logical = logical
  | none => false

/-- The MAPPED frame of a logical frame is retire-overdue. -/
def State.overdueFrame (s : State) (logical : Nat) : Bool :=
  match s.entry? logical with
  | some e => ((s.frame? e.frame).map (·.overdue)).getD false
  | none => false

/-- The last migration result is set (R106). -/
def setLastResult (logical : Nat) (reason : Reason) (result : MigResult) (s : State) : State :=
  s.setMig { s.mig with
    lastResult := some { logical := logical, reason := reason, result := result, tick := s.time.tick } }

/-- A request joins the tail of the retire class. -/
def joinRetire (r : MigRequest) (s : State) : State :=
  s.setMig { s.mig with retireQueue := s.mig.retireQueue ++ [r] }

/-- A request joins the tail of the back class. -/
def joinBack (r : MigRequest) (s : State) : State :=
  s.setMig { s.mig with backQueue := s.mig.backQueue ++ [r] }

/-- The newest back-class request is removed (R83): a MANUAL one ends with MIGRATION_ABORTED, either with result EVICTED. -/
def evictNewest (s : State) : State :=
  match s.mig.backQueue.getLast? with
  | some r =>
    let t := setLastResult r.logical r.reason .evicted (s.setMig { s.mig with backQueue := s.mig.backQueue.dropLast })
    if r.reason = .manual then raise .migrationAborted t else t
  | none => s

/-- A retire request reaches a migration in QUIESCE or COPY of the frame being moved (R96). -/
def upgradeCurrent (reason : Reason) (s : State) : State :=
  updMig (fun m => if m.reason.retire then m else { m with reason := reason }) s

/-- The migration in progress takes retire requests by R96: QUIESCE or COPY with no abort pending. -/
def Migration.upgradable (m : Migration) : Bool := m.phase ≠ .commitWait && !m.abortPending

/-- A retire request in ONLINE or WRITE_PROTECTED (Table 5.2, the first row that applies). -/
def handleRetire (logical : Nat) (reason : Reason) (s : State) : State :=
  let r : MigRequest := { logical := logical, reason := reason }
  if s.overdueFrame logical then s
  else if s.mig.isMoving logical then
    if (s.mig.current.map Migration.upgradable).getD false then upgradeCurrent reason s else s
  else if names logical s.mig.retireQueue then s
  else if names logical s.mig.backQueue then
    joinRetire r (s.setMig { s.mig with backQueue := s.mig.backQueue.filter fun x => x.logical ≠ logical })
  else if s.mig.room then joinRetire r s
  else if s.mig.backQueue.isEmpty then s
  else joinRetire r (evictNewest s)

/-- A retire request reaches the Migration Engine (R83): it is handled in ONLINE and WRITE_PROTECTED only. -/
def retireRequest (logical : Nat) (reason : Reason) (s : State) : State :=
  if s.running then handleRetire logical reason s else s

/-! ### Retire causes (R111) -/

/-- A retire cause is reported for a physical frame (R12, R111): nothing if it is not MAPPED; otherwise it is marked
retire-wanted and a retire request for its owner reaches the engine. -/
def retireCause (frame : Nat) (reason : Reason) (s : State) : State :=
  match s.frame? frame with
  | some r =>
    if s.map.loaded && r.role = .mapped then
      let t := updFrame frame (fun x => { x with wanted := true }) s
      match r.owner with
      | some logical => retireRequest logical reason t
      | none => t
    else s
  | none => s

/-- A frame's wear rises by 1 (R11). -/
def raiseWear (frame : Nat) (s : State) : State :=
  updFrame frame (fun r => { r with wear := satRaise max32 r.wear }) s

/-- The wear threshold after a raise (R107): a MAPPED frame at or above RetireWear reports RETIRE_WEAR. -/
def checkWear (frame : Nat) (s : State) : State :=
  match s.frame? frame with
  | some r => if r.role = .mapped && s.retireWear ≤ r.wear then retireCause frame .retireWear s else s
  | none => s

/-- A frame's corrected-errors count rises by 1 when it is MAPPED or TARGET (R11, R72), and a MAPPED frame at or above
RetireErrors reports RETIRE_ERROR (R108). -/
def raiseCorrected (frame : Nat) (s : State) : State :=
  match s.frame? frame with
  | some r =>
    if r.role = .mapped || r.role = .target then
      let t := updFrame frame (fun x => { x with corrected := satRaise max16 x.corrected }) s
      if r.role = .mapped && s.time.active.retireErrors ≤ satRaise max16 r.corrected then
        retireCause frame .retireError t
      else t
    else s
  | none => s

/-! ### What the Media Port does with an outcome (R67, R72 to R74) -/

/-- A MEDIA READ's outcome arrives: the place is freed, health and the last error record are raised, and a corrected
read is claimed on the frame record. The claim, with the retire cause its raised count reports (R108), comes before the
requester takes the outcome, so under a pending abort before the abort completes (DESIGN CHOICE, log entry 43). -/
def readOutcome {α : Type} (op : InFlight) (o : ReadOutcome α) (s : State) : State :=
  let t := freePlaceOf op.id s
  match o with
  | .clean _ => t
  | .corrected k _ =>
    raiseCorrected (frameOf op.request.physical)
      (recordError op .corrected k
        (bumpHealth (fun h => { h with correctedReads := satRaise max32 h.correctedReads }) t))
  | .uncorrectable =>
    recordError op .uncorrectable 0
      (bumpHealth (fun h => { h with uncorrectableReads := satRaise max32 h.uncorrectableReads }) t)

/-- A MEDIA WRITE's outcome arrives: the place is freed, the frame's wear rises (R72), and a PROGRAM_FAIL is counted
and recorded. The wear threshold is compared by `checkWear` (R107, R110). -/
def writeOutcome (op : InFlight) (report : WriteReport) (s : State) : State :=
  let t := raiseWear (frameOf op.request.physical) (freePlaceOf op.id s)
  match report with
  | .stored => t
  | .programFail =>
    recordError op .programFail 0
      (bumpHealth (fun h => { h with programFails := satRaise max32 h.programFails }) t)

/-! ### The wear sweep (R112 to R117) -/

/-- The reason a retire-wanted frame is offered with (R113). -/
def offeredReason (retireWear : Nat) (failMark : Bool) (r : FrameRecord) : Reason :=
  if failMark then .retireProgram else if retireWear ≤ r.wear then .retireWear else .retireError

/-- One frame offered by the re-queuing (R113): MAPPED, retire-wanted, not retire-overdue, its owner neither queued
nor migrating. Whether its owner is queued is judged at the frame's turn: an owner whose own request an earlier offer of
this sweep has evicted is offered again (DESIGN CHOICE, log entry 38). -/
def offerFrame (s : State) (frame : Nat) : State :=
  match s.frame? frame with
  | some r =>
    match r.owner with
    | some logical =>
      if r.role = .mapped && r.wanted && !r.overdue && !(s.mig.isQueued logical) && !(s.mig.isMoving logical) then
        retireRequest logical
          (offeredReason s.retireWear (((s.entry? logical).map (·.failMark)).getD false) r) s
      else s
    | none => s
  | none => s

/-- The MAPPED frames that are retire-wanted and not retire-overdue, ascending (R113). -/
def State.wantedFrames (s : State) : List Nat :=
  (s.map.frames.zipIdx.filter fun p => p.1.role = .mapped && p.1.wanted && !p.1.overdue).map (·.2)

/-- The re-queuing: frames offered in ascending frame number (R113). -/
def requeue (s : State) : State := s.wantedFrames.foldl offerFrame s

/-- The hotter of two numbered frame records: higher wear, the first on equal wear (R116). -/
def hotter (x y : FrameRecord × Nat) : FrameRecord × Nat := if x.1.wear < y.1.wear then y else x

/-- The hottest frame: the MAPPED frame of highest wear, the lowest-numbered on equal wear (R116). -/
def hottestOf (frames : List FrameRecord) : Option (FrameRecord × Nat) :=
  match frames.zipIdx.filter fun p => p.1.role = .mapped with
  | [] => none
  | x :: rest => some (rest.foldl hotter x)

/-- A LEVEL request is queued under R84. -/
def State.levelJoins (s : State) (logical : Nat) : Bool :=
  s.unit.state = .online && !(s.mig.isQueued logical) && !(s.mig.isMoving logical) && !(s.overdueFrame logical)
    && s.mig.room

/-- A LEVEL request or migration is in hand (R115). -/
def State.levelPending (s : State) : Bool :=
  s.mig.backQueue.any (fun r => r.reason = .level)
    || (match s.mig.current with
        | some m => m.reason = .level
        | none => false)

/-- The level check record is replaced (R117). -/
def setLevelCheck (outcome : LevelOutcome) (figures : Option LevelFigures) (s : State) : State :=
  s.setMig { s.mig with levelCheck := some { tick := s.time.tick, outcome := outcome, figures := figures } }

/-- The level check that is made (R116): the hottest frame against the pool head. -/
def compareLevel (hot : FrameRecord × Nat) (head : Nat) (s : State) : State :=
  let owner := hot.1.owner.getD 0
  let headWear := wearIn s.map.frames head
  let figures : LevelFigures :=
    { hottest := hot.2, owner := owner, wear := hot.1.wear, head := head, headWear := headWear }
  if headWear + s.time.active.levelThreshold ≤ hot.1.wear then
    if s.levelJoins owner then
      setLevelCheck .queued (some figures) (joinBack { logical := owner, reason := .level } s)
    else setLevelCheck .dropped (some figures) s
  else setLevelCheck .belowThreshold (some figures) s

/-- The level check of a wear sweep (R115 to R117). Where several grounds for not making it hold at once, the outcome is
PROTECTED before LEVEL_PENDING before NO_SPARE (DESIGN CHOICE, log entry 34: Table 6.3 gives no precedence). -/
def levelCheck (s : State) : State :=
  if s.unit.state ≠ .online then setLevelCheck .protected_ none s
  else if s.levelPending then setLevelCheck .levelPending none s
  else
    match s.map.pool, hottestOf s.map.frames with
    | head :: _, some hot => compareLevel hot head s
    | _, _ => setLevelCheck .noSpare none s

/-- The wear sweep (R112): the re-queuing, then the level check. -/
def wearSweep (s : State) : State := levelCheck (requeue s)

end Sys2Proof.Machine
end

