-- ==== Sys2Proof/Machine/Migration.lean ====
section
/-! DEFINITION. The Migration Engine: taking a request, quiesce, target, copy, commit, late copies, switch, abort (ch5). -/

namespace Sys2Proof.Machine

/-! ### The write-protect latch (R19, R142) -/

/-- The latch is set; a unit that is ONLINE enters WRITE_PROTECTED at once and refuses waiting writes (R19, R48, R142). -/
def setLatch (s : State) : State :=
  let t := s.setMap { s.map with latch := true }
  if t.unit.state = .online then refuseWaiting (enterState .writeProtected t) else t

/-! ### Copying (R92 to R94) -/

/-- The MEDIA READ of a source line. -/
def copyReadRequest (m : Migration) (i : Nat) : MediaRequest :=
  { cls := .copy, requester := .engine, kind := .read, physical := lineAt m.source i }

/-- The MEDIA WRITE of a target line. -/
def copyWriteRequest (m : Migration) (i : Nat) (d : LineData) : MediaRequest :=
  { cls := .copy, requester := .engine, kind := .write (.data d), physical := lineAt (m.target.getD 0) i }

/-- The copy of line i starts (R92): zeros to a line already known poisoned, otherwise a read of the source. -/
def startCopy (i : Nat) (s : State) : State :=
  match s.mig.current with
  | some m =>
    request (if m.pendingPoison.getLsbD i then copyWriteRequest m i zeroLine else copyReadRequest m i) s
  | none => s

/-! ### The end of a migration -/

/-- The engine returns to IDLE. -/
def engineIdle (s : State) : State := s.setMig { s.mig with current := none }

/-- A retire migration finds the pool empty (R90). -/
def spareExhausted (m : Migration) (s : State) : State :=
  let t := setFailMark m.logical false (updFrame m.source (fun r => { r with overdue := true }) s)
  let u := setMigrationMark m.logical false (raise .sparesExhausted (setLatch t))
  engineIdle (setLastResult m.logical m.reason .overdue u)

/-- A LEVEL or MANUAL migration finds the pool empty (R91). -/
def noSpare (m : Migration) (s : State) : State :=
  let t := setMigrationMark m.logical false s
  let u := bumpHealth (fun h => { h with migrationsAborted := satRaise max32 h.migrationsAborted }) t
  engineIdle (setLastResult m.logical m.reason .noSpare (raise .migrationAborted u))

/-- The engine asks for a target (R14, R89 to R91): the pool head, and the copy of line 0; or the end for want of a spare. -/
def askTarget (m : Migration) (s : State) : State :=
  match s.map.pool with
  | head :: rest =>
    let poison := ((s.entry? m.logical).map (·.poison)).getD 0#64
    let t := takeTarget head rest m.logical s
    startCopy 0
      (t.setMig { t.mig with
        current := some { m with phase := .copy, target := some head, copyIndex := 0, pendingPoison := poison } })
  | [] => if m.reason.retire then spareExhausted m s else noSpare m s

/-- The migration made from a request (R87). Its copy index and pending poison mask are those of log entry 30; its fate,
which R98 fixes at the end of the copy, stands at SPARE until then (DESIGN CHOICE, log entry 41). -/
def newMigration (r : MigRequest) (source : Nat) : Migration :=
  { phase := .quiesce, logical := r.logical, reason := r.reason, source := source, target := none, copyIndex := 0,
    pendingPoison := 0#64, lateMask := 0#64, lateFail := none, lateCopy := none, lateAwaited := [],
    lateSettled := 0#64, abortPending := false, fate := .spare,
    commitDurable := false }

/-- The head of the queue and the engine without it (R82). -/
def MigrationEngine.takeHead (m : MigrationEngine) : Option (MigRequest × MigrationEngine) :=
  match m.retireQueue, m.backQueue with
  | r :: rest, _ => some (r, { m with retireQueue := rest })
  | [], r :: rest => some (r, { m with backQueue := rest })
  | [], [] => none

/-- The engine takes the head of its queue when IDLE in ONLINE or WRITE_PROTECTED (R87): the migration mark is placed
and QUIESCE begins. -/
def migrationTake? (s : State) : Option State :=
  if s.running && s.mig.current.isNone then
    match s.mig.takeHead with
    | some (r, m) =>
      let source := ((s.entry? r.logical).map (·.frame)).getD 0
      some (setMigrationMark r.logical true
        (s.setMig { m with current := some (newMigration r source) }))
    | none => none
  else none

/-- The states in which the engine goes on with a migration in QUIESCE or COPY: ONLINE, WRITE_PROTECTED, CLOSING (R104). -/
def State.engineRuns (s : State) : Bool := s.running || s.unit.state = .closing

/-- QUIESCE ends when no drain of the frame is in phase FILL, POISON_WAIT, WRITE or LOSING (R88); a target is asked for. -/
def quiesceEnd? (s : State) : Option State :=
  match s.mig.current with
  | some m =>
    if s.engineRuns && m.phase = .quiesce && !m.abortPending && !(s.frameDraining m.logical) then
      some (askTarget m s)
    else none
  | none => none

/-! ### Commit (R98) -/

/-- A frame stands at or over a threshold (R98). -/
def State.overThreshold (s : State) (frame : Nat) : Bool :=
  match s.frame? frame with
  | some r => decide (s.retireWear ≤ r.wear) || decide (s.time.active.retireErrors ≤ r.corrected)
  | none => false

/-- The fate of the source at the end of the copy (R98, Table 5.1). -/
def State.fateOf (s : State) (m : Migration) : Fate :=
  if m.reason.retire || s.overThreshold m.source then .retired else .spare

/-- The copy ends (R98): the fate is fixed, MOVE_COMMIT is handed over, COMMIT_WAIT begins. -/
def endCopy (m : Migration) (s : State) : State :=
  let fate := s.fateOf m
  handOver .engine (.moveCommit m.logical (m.target.getD 0) m.source fate m.pendingPoison)
    (updMig (fun x => { x with phase := .commitWait, fate := fate }) s)

/-- A copy line is written (R92): the next line starts, or the copy ends after line 63. -/
def copyLineDone (m : Migration) (s : State) : State :=
  if m.copyIndex < 63 then
    startCopy (m.copyIndex + 1) (updMig (fun x => { x with copyIndex := m.copyIndex + 1 }) s)
  else endCopy m s

/-- A target fails to program (R94): it becomes RETIRED and its SPARE_RETIRE is handed over. -/
def failTarget (m : Migration) (s : State) : State :=
  match m.target with
  | some f => handOver .engine (.spareRetire f) (updMig (fun x => { x with target := none }) (retireFrame f s))
  | none => s

/-! ### Abort (R102, R103) -/

/-- The target still held returns to the pool (R103). -/
def returnTarget (m : Migration) (s : State) : State :=
  match m.target with
  | some f => if ((s.frame? f).map (·.role)) = some .target then joinPool f s else s
  | none => s

/-- The fail mark is kept at an abort: the unit is ONLINE and the source is retire-wanted (R9). -/
def State.keepsFailMark (s : State) (source : Nat) : Bool :=
  s.unit.state = .online && ((s.frame? source).map (·.wanted)).getD false

/-- An abort completes (R103). -/
def completeAbort (m : Migration) (s : State) : State :=
  let t := setMigrationMark m.logical false (returnTarget m s)
  let u := if t.keepsFailMark m.source then t else setFailMark m.logical false t
  let v := bumpHealth (fun h => { h with migrationsAborted := satRaise max32 h.migrationsAborted }) u
  engineIdle (setLastResult m.logical m.reason .aborted (raise .migrationAborted v))

/-- An abort is taken (R103): abort pending is set and a waiting copy request is withdrawn. -/
def takeAbort (s : State) : State :=
  withdraw (fun r => r.requester = .engine) (updMig (fun m => { m with abortPending := true }) s)

/-- A pending abort completes when no operation of the engine is in flight (R103); in FAILED the engine has stopped. -/
def abortComplete? (s : State) : Option State :=
  match s.mig.current with
  | some m =>
    if s.working && m.phase ≠ .commitWait && m.abortPending && !s.engineInFlight then some (completeAbort m s)
    else none
  | none => none

/-- The migration may be aborted: QUIESCE or COPY (R102). -/
def Migration.abortable (m : Migration) : Bool := m.phase ≠ .commitWait

/-! ### Copy outcomes (R93, R94, R103) -/

/-- A copy read's outcome in COPY (R93, R103). The retire cause of an UNCORRECTABLE read under an abort is reported when
the abort has completed, and before the engine, IDLE again, takes the head of its queue (DESIGN CHOICE, log entry 39: R103
names the taking at the abort's completion and the report after it, and does not order the two). -/
def copyReadOutcome (m : Migration) (o : ReadOutcome LineData) (s : State) : State :=
  if m.abortPending then
    match o with
    | .uncorrectable => retireCause m.source .retireError (completeAbort m s)
    | _ => s
  else
    match o.delivered with
    | some d => request (copyWriteRequest m m.copyIndex d) s
    | none =>
      retireCause m.source .retireError
        (request (copyWriteRequest m m.copyIndex zeroLine)
          (updMig (fun x => { x with pendingPoison := putFlag x.pendingPoison m.copyIndex true }) s))

/-- A copy write's outcome in COPY (R92, R94, R103). -/
def copyWriteOutcome (m : Migration) (report : WriteReport) (s : State) : State :=
  match report with
  | .stored => if m.abortPending then s else copyLineDone m s
  | .programFail =>
    let t := failTarget m s
    if m.abortPending then t else askTarget { m with target := none } t

/-! ### Late copies (R101, log entry 13) -/

/-- A drain write to a line of the frame in COMMIT_WAIT has completed: its late flag is set, and the line is to be
copied again, whatever became of an earlier late copy of it or becomes of the one in progress (R101). -/
def markLate (line : Nat) (s : State) : State :=
  if s.commitWaitOf (frameOf line) then
    updMig (fun m =>
      { m with
        lateMask := putFlag m.lateMask (indexOf line) true
        lateSettled := putFlag m.lateSettled (indexOf line) false
        lateCopy := m.lateCopy.map fun c => if c.line = indexOf line then { c with redrained := true } else c }) s
  else s

/-- The late line to be copied next, when no late copy is in progress (R101): the lowest late line, of those whose flag
does not wait for its POISON_SET records alone (log entry 13). -/
def Migration.nextLate (m : Migration) : Option Nat :=
  if m.lateCopy.isNone then lowestFlag (m.lateMask &&& ~~~ m.lateSettled) else none

/-- The engine copies a late line again, when no drain of the frame is in progress (R101). -/
def lateCopyStart? (s : State) : Option State :=
  match s.mig.current with
  | some m =>
    if s.working && m.phase = .commitWait && !(s.frameDraining m.logical) then
      match m.nextLate with
      | some i => some (startCopy i (updMig (fun x => { x with lateCopy := some { line := i, redrained := false } }) s))
      | none => none
    else none
  | none => none

/-- The late flag of a line is cleared, and a late fail of the line removed (R101). -/
def Migration.clearLate (i : Nat) (m : Migration) : Migration :=
  { m with
    lateMask := putFlag m.lateMask i false
    lateSettled := putFlag m.lateSettled i false
    lateFail := if m.lateFail = some i then none else m.lateFail }

/-- The late copy in progress is done with (R101): nothing changes where a drain write of its line completed meanwhile,
and the line is copied again; otherwise its flag is cleared, or waits for its POISON_SET records alone. -/
def Migration.lateDone (c : LateCopy) (m : Migration) : Migration :=
  let x := { m with lateCopy := none }
  if c.redrained then x
  else if c.line ∈ m.lateAwaited then { x with lateSettled := putFlag m.lateSettled c.line true }
  else Migration.clearLate c.line x

/-- A late line's POISON_SET record is handed over, and awaited until it is durable (R101). Where one of the line waits to
join the queue, it shares that one's place in the order (DESIGN CHOICE, log entry 40). -/
def lateRecord (m : Migration) (i : Nat) (s : State) : State :=
  handOver (.lateCopy i) (.poisonSet (lineAt m.logical i))
    (updMig (fun x => { x with lateAwaited := x.lateAwaited ++ [i] }) s)

/-- A late copy read's outcome (R93, R101). -/
def lateReadOutcome (m : Migration) (c : LateCopy) (o : ReadOutcome LineData) (s : State) : State :=
  match o.delivered with
  | some d => request (copyWriteRequest m c.line d) s
  | none =>
    retireCause m.source .retireError
      (lateRecord m c.line
        (request (copyWriteRequest m c.line zeroLine)
          (updMig (fun x => { x with pendingPoison := putFlag x.pendingPoison c.line true }) s)))

/-- A late copy write completes DONE (R101). -/
def lateWriteDone (c : LateCopy) (s : State) : State := updMig (Migration.lateDone c) s

/-- A late copy write fails to program (R101): a first fail sets the late fail, the flag stays set and the line is copied
again; a second fail of the line hands over its POISON_SET record, whose durability clears the flag. -/
def lateWriteFail (m : Migration) (c : LateCopy) (s : State) : State :=
  if m.lateFail = some c.line then updMig (Migration.lateDone c) (lateRecord m c.line s)
  else updMig (fun x => { x with lateFail := some c.line, lateCopy := none }) s

/-- A late line's POISON_SET record is durable (R101, Table 7.2): the line's flag is set, and its late flag is cleared
once its copy is done with and no other record of the line is awaited. -/
def lateRecordDurable (i : Nat) (s : State) : State :=
  match s.mig.current with
  | some m =>
    updMig (fun x =>
      let y := { x with lateAwaited := x.lateAwaited.erase i }
      if x.lateSettled.getLsbD i && !(y.lateAwaited.contains i) then Migration.clearLate i y else y) (setPoison (lineAt m.logical i) true s)
  | none => s

/-! ### The switch (R99, R100) -/

/-- The health count a committed migration raises (R99). -/
def committedCount (r : Reason) (h : HealthMonitor) : HealthMonitor :=
  match r with
  | .level => { h with migrationsLevel := satRaise max32 h.migrationsLevel }
  | .manual => { h with migrationsManual := satRaise max32 h.migrationsManual }
  | _ => { h with migrationsRetire := satRaise max32 h.migrationsRetire }

/-- The source leaves MAPPED at the switch (R7, R99): owner and retire-wanted mark removed, the fate applied, a SPARE
inserted in the pool. -/
def releaseSource (m : Migration) (s : State) : State :=
  let t := updFrame m.source (fun r => { r with wanted := false }) s
  if m.fate = .spare then joinPool m.source t else retireFrame m.source t

/-- The map change of the switch (R7, R99): entry, target and source in one happening, both hold marks removed. -/
def switchTables (m : Migration) (s : State) : State :=
  let target := m.target.getD 0
  let t := updEntry m.logical
    (fun _ => { frame := target, poison := m.pendingPoison, migrationMark := false, failMark := false }) s
  releaseSource m (updFrame target (fun r => { r with role := .mapped }) t)

/-- The new frame's counts compared with the thresholds after the switch (R100); RETIRE_WEAR when both hold. -/
def checkNewFrame (frame : Nat) (s : State) : State :=
  match s.frame? frame with
  | some r =>
    if s.retireWear ≤ r.wear then retireCause frame .retireWear s
    else if s.time.active.retireErrors ≤ r.corrected then retireCause frame .retireError s
    else s
  | none => s

/-- The switch (R99, R100). -/
def switchMigration (m : Migration) (s : State) : State :=
  let t := raise .migrationDone (switchTables m s)
  let u := setLastResult m.logical m.reason .committed (bumpHealth (committedCount m.reason) t)
  checkNewFrame (m.target.getD 0) (engineIdle u)

/-- The switch is made once MOVE_COMMIT is durable, the late mask is empty and no drain of the frame is in progress
(R99, R101). -/
def migrationSwitch? (s : State) : Option State :=
  match s.mig.current with
  | some m =>
    if s.working && m.phase = .commitWait && m.commitDurable && m.lateMask = 0#64 && !(s.frameDraining m.logical) then
      some (switchMigration m s)
    else none
  | none => none

end Sys2Proof.Machine
end

