-- ==== Sys2Proof/Machine/UnitControl.lean ====
section
/-! DEFINITION. Unit Control's transitions: FAILED, the resets, entry to RECOVERING, DRAIN_LOCK, CLOSING, SAFE and out of it (ch8, ch9), and the commit or failure of a checkpoint (R132, R133). -/

namespace Sys2Proof.Machine

/-! ### FAILED (R143) -/

/-- The unit enters FAILED (R143, Table 8.3): operations end without result, host requests are answered, a checkpoint in
progress is abandoned; a second cause changes nothing. -/
def enterFailed (cause : FailCause) (s : State) : State :=
  if s.unit.state = .failed then s
  else
    let t := answerAllFailed (endWithoutResult s)
    let u := t.setJrn { t.jrn with writing := false, checkpoint := none }
    enterState .failed (u.setUnit { u.unit with
      failCause := some cause, safeOrigin := none, stage := none, restartPending := false, format := none,
      recovery := none })

/-! ### Resets (R144, R157) -/

/-- Every block at its hard-reset values (R144), less what no reset touches: the sampled straps, which stand until the
next release, the level of the hold-up warning, and the queue of commands. The medium receives a discard (R80). -/
def hardReset (s : State) : State :=
  { State.reset with
    unit := { State.reset.unit with
      sizeStraps := s.unit.sizeStraps, addrStraps := s.unit.addrStraps, holdUp := s.unit.holdUp }
    out := { s.out with mediaDiscard := true }
    pending := s.pending }

/-- A request of Unit Control (Table 4.2: the JOURNAL class). -/
def unitRequest (kind : MediaKind) (physical : Nat) : MediaRequest :=
  { cls := .journal, requester := .unitControl, kind := kind, physical := physical }

/-- The hold-up warning ends the work of RECOVERING or FORMATTING (R162): SAFE, origin DRAIN_LOCK, tables not loaded,
geometry out of use. -/
def abandonToSafe (s : State) : State :=
  let t := unloadTables (abandonUnitWork s)
  enterState .safe (t.setUnit { t.unit with
    safeOrigin := some .drainLock, standing := none, geometry := none, format := none, recovery := none })

/-- Recovery at its start: step 1 (R150). -/
def recoveryStart : RecoveryWork :=
  { step := .geometry, headerA := none, headerB := none, candidates := [], sawInconsistent := false }

/-- Entry to RECOVERING (R144, R150): the read of the geometry record is requested, or, with the hold-up warning
asserted, no read is made and the unit is SAFE at once (R158, R162). -/
def startRecovery (s : State) : State :=
  let t := enterState .recovering (s.setUnit { s.unit with recovery := some recoveryStart, safeOrigin := none })
  if t.unit.holdUp then abandonToSafe t else request (unitRequest .read 0) t

/-- The volatile reset (R157): hard-reset values but for the link receiver, the pending response and the sampled
straps; the unit enters RECOVERING. -/
def volatileReset (s : State) : State :=
  let t := hardReset s
  startRecovery (t.setLink { t.link with response := s.link.response })

/-! ### SAFE (R161, R164, R166 to R168) -/

/-- SAFE is left with the tables loaded (R167, R168): OPEN is handed over, and the unit is WRITE_PROTECTED when the
latch is set and ONLINE otherwise. -/
def leaveSafe (s : State) : State :=
  let t := handOver .unitControl .opened s
  enterState (if t.map.latch then .writeProtected else .online) (t.setUnit { t.unit with safeOrigin := none })

/-- SAFE with origin DRAIN_LOCK is left when the warning is not asserted (R167): to ONLINE or WRITE_PROTECTED with the
tables loaded, to RECOVERING otherwise. -/
def leaveSafeDrainLock (s : State) : State := if s.map.loaded then leaveSafe s else startRecovery s

/-- The unit enters SAFE at the end of a sequence (R161, R164). A checkpoint still in progress ends there (R166, log
entry 15). With origin DRAIN_LOCK and the warning not asserted, SAFE is left in the same happening (R167). -/
def enterSafe (origin : SafeOrigin) (s : State) : State :=
  let t := abandonCheckpoint s
  let u := enterState .safe (t.setUnit { t.unit with safeOrigin := some origin, stage := none, restartPending := false })
  if origin = .drainLock && !u.unit.holdUp then leaveSafeDrainLock u else u

/-- The CLOSING sequence ends (R156, R164, R165): SAFE with origin PREPARE_OFF, or the volatile reset when RESTART is pending. -/
def closingEnds (s : State) : State :=
  if s.unit.restartPending then volatileReset s else enterSafe .prepareOff s

/-- A SHUTDOWN record is durable (R161, R165). -/
def shutdownDurable (s : State) : State :=
  if s.unit.state = .drainLock then enterSafe .drainLock s
  else if s.unit.state = .closing then closingEnds s
  else s

/-! ### Entry to DRAIN_LOCK and CLOSING (R159, R163) -/

/-- The migration queue is emptied with no event (R86). -/
def emptyQueue (s : State) : State := s.setMig { s.mig with retireQueue := [], backQueue := [] }

/-- A migration in QUIESCE or COPY is aborted at entry to DRAIN_LOCK (R104). -/
def abortForDrainLock (s : State) : State :=
  match s.mig.current with
  | some m => if m.abortable then takeAbort s else s
  | none => s

/-- The sequence stage at entry to DRAIN_LOCK (R159): SHUTDOWN when CLOSING stood there, EMPTYING otherwise. -/
def State.drainLockStage (s : State) : Stage :=
  if s.unit.state = .closing && s.unit.stage = some .shutdown then .shutdown else .emptying

/-- Entry to DRAIN_LOCK (R159). -/
def enterDrainLock (s : State) : State :=
  let t := enterState .drainLock
    (s.setUnit { s.unit with stage := some s.drainLockStage, restartPending := false })
  refuseWaiting (removeHoldMarks (abandonCheckpoint (abortForDrainLock (emptyQueue t))))

/-- Entry to CLOSING by PREPARE_OFF or RESTART (R156, R163). -/
def enterClosing (restart : Bool) (s : State) : State :=
  let t := enterState .closing
    (s.setUnit { s.unit with stage := some .emptying, restartPending := restart })
  refuseWaiting (removeFailMarks (emptyQueue t))

/-! ### The ends of the stages (R160, R164, R165) -/

/-- The four conditions of R160 hold together: no slot, no drain, the engine IDLE, and no record staged or held. -/
def State.emptied (s : State) : Bool :=
  s.buf.slots.isEmpty && s.buf.drains.isEmpty && s.mig.current.isNone && s.journalIdle

/-- Unit Control sets stage SHUTDOWN and hands over a SHUTDOWN record (R160, R165). -/
def toShutdown (s : State) : State :=
  handOver .unitControl .shutdown (s.setUnit { s.unit with stage := some .shutdown })

/-- Stage EMPTYING of DRAIN_LOCK ends (R160). -/
def drainLockEmptyingEnd? (s : State) : Option State :=
  if s.unit.state = .drainLock && s.unit.stage = some .emptying && s.emptied then some (toShutdown s) else none

/-- Stage EMPTYING of CLOSING ends (R164). -/
def closingEmptyingEnd? (s : State) : Option State :=
  if s.unit.state = .closing && s.unit.stage = some .emptying && s.emptied then
    some (s.setUnit { s.unit with stage := some .checkpoint })
  else none

/-- The closing checkpoint starts, with its clean flag set, once no checkpoint is in progress (R164). -/
def closingCheckpointStart? (s : State) : Option State :=
  if s.unit.state = .closing && s.unit.stage = some .checkpoint && s.jrn.checkpoint.isNone then
    some (startCheckpoint true s)
  else none

/-! ### The end of a checkpoint (R132, R133) -/

/-- A checkpoint commits (R132): the descriptor, the tail, the full flag and the sweep count follow; the closing
checkpoint reports its commit (R164). -/
def commitCheckpoint (c : Checkpoint) (s : State) : State :=
  let t := s.setJrn { s.jrn with
    descriptor := some { area := c.area, seq := c.seq, posSeq := c.posSeq, posSlot := c.posSlot, clean := c.clean }
    tail := c.posSlot
    full := decide (c.slotsTaken = Config.ringSlots)
    checkpoint := none }
  let u := raise .checkpointDone (t.setTime { t.time with sweeps := 0 })
  if c.clean && u.unit.state = .closing then closingEnds u else u

/-- A checkpoint fails (R133); a closing checkpoint's failure hands over a SHUTDOWN record (R165). -/
def failCheckpoint (c : Checkpoint) (s : State) : State :=
  let t := raise .checkpointFailed (s.setJrn { s.jrn with checkpoint := none })
  if c.clean && t.unit.state = .closing then toShutdown t else t

/-- An image line is written (R131): the next is requested, or the header after the last. -/
def imageLineDone (c : Checkpoint) (s : State) : State :=
  let written := c.linesWritten + 1
  let c' := { c with
    linesWritten := written, imageCheck := Config.imageCheckStep c.imageCheck (c.image.line c.linesWritten) }
  if written < imageLines s.nP then
    request (checkpointRequest (imageLineAt s.nP c.area written) (c.image.line written))
      (s.setJrn { s.jrn with checkpoint := some c' })
  else
    request (checkpointRequest (headerLine s.nP c.area) (.header (headerOf c') true))
      (s.setJrn { s.jrn with checkpoint := some { c' with phase := .header } })

/-- A checkpoint write's outcome reaches the Journal Controller (R131 to R133). -/
def checkpointOutcome (report : WriteReport) (s : State) : State :=
  match s.jrn.checkpoint with
  | some c =>
    match report, c.phase with
    | .programFail, _ => failCheckpoint c s
    | .stored, .image => imageLineDone c s
    | .stored, .header => commitCheckpoint c s
    | .stored, .starting => s
  | none => s

end Sys2Proof.Machine
end

