-- ==== Sys2Proof/Machine/Drains.lean ====
section
/-! DEFINITION. What follows the outcomes of fill reads, drain writes and record writes (R32 to R39, R124, R125). -/

namespace Sys2Proof.Machine

/-- A lost write is over (R38, R39): LostWrites rises and POISON_CREATED is raised. -/
def countLost (s : State) : State :=
  raise .poisonCreated (bumpHealth (fun h => { h with lostWrites := satRaise max32 h.lostWrites }) s)

/-! ### Fill reads (R32, R33) -/

/-- The drain's line is formed and its MEDIA WRITE requested: phase WRITE. -/
def drainToWrite (d : Drain) (line : LineData) (s : State) : State :=
  request (drainWriteRequest d line) (updDrain d.place (fun x => { x with formed := line, phase := .write }) s)

/-- A fill read's outcome (R32, R33). -/
def fillOutcome (d : Drain) (o : ReadOutcome LineData) (s : State) : State :=
  match o.delivered with
  | some data => drainToWrite d (overlay d.snapMask d.snapshot data) s
  | none =>
    let formed := overlay d.snapMask d.snapshot zeroLine
    let t := retireCause (frameOf d.physical) .retireError s
    if t.poisoned d.line then drainToWrite d formed t
    else
      handOver (.drain d.place) (.poisonSet d.line)
        (updDrain d.place (fun x => { x with formed := formed, phase := .poisonWait }) t)

/-! ### Drain writes (R36 to R38) -/

/-- The drain ends, or hands over a POISON_CLEAR record and, with the queue full, keeps its place in CLEAR_WAIT (R37). -/
def endOrClear (d : Drain) (s : State) : State :=
  if d.poisoned && d.snapMask = fullMask then
    let t := setPoison d.line false s
    if t.joinsAtOnce then endDrain d.place (handOver (.drain d.place) (.poisonClear d.line) t)
    else
      handOver (.drain d.place) (.poisonClear d.line) (updDrain d.place (fun x => { x with phase := .clearWait }) t)
  else endDrain d.place s

/-- A drain write completes DONE (R36, R37, R101, R107). -/
def drainDone (d : Drain) (s : State) : State :=
  let t := bumpHealth (fun h => { h with drains := satRaise max32 h.drains }) s
  let u := endOrClear d (finishSlot d.line (markLate d.line t))
  checkWear (frameOf d.physical) u

/-- The first fail of a slot (R38): back to DIRTY at its old place, the drain ends, and the fail mark is placed unless
the unit is closing down or the frame is retire-overdue. -/
def drainFailOnce (d : Drain) (s : State) : State :=
  let t := endDrain d.place
    (updSlot d.line (fun x => { x with draining := false, failedOnce := true, redirty := none }) s)
  let overdue := ((t.frame? (frameOf d.physical)).map (·.overdue)).getD false
  if t.running && !overdue then setFailMark (frameOf d.line) true t else t

/-- The second fail of a slot (R38): its writes are lost; at once if the line's flag is set, otherwise behind a
POISON_SET record in phase LOSING. -/
def drainLoses (d : Drain) (s : State) : State :=
  let t := updSlot d.line (fun x => { x with data := zeroLine, valid := 0#64, redirty := none }) s
  if t.poisoned d.line then countLost (endDrain d.place (freeSlot d.line t))
  else
    handOver (.drain d.place) (.poisonSet d.line) (updDrain d.place (fun x => { x with phase := .losing }) t)

/-- A drain write completes PROGRAM_FAIL (R38, R101, R110). -/
def drainFails (d : Drain) (s : State) : State :=
  let t := markLate d.line (retireCause (frameOf d.physical) .retireProgram s)
  if ((t.slot? d.line).map (·.failedOnce)).getD false then drainLoses d t else drainFailOnce d t

/-! ### Durability (R124, Table 7.2) -/

/-- A drain's POISON_SET record is durable (R34, R39): the flag is set, and the drain writes its line or ends its loss. -/
def drainRecordDurable (d : Drain) (s : State) : State :=
  let t := setPoison d.line true s
  match d.phase with
  | .poisonWait => drainToWrite d d.formed (raise .poisonCreated t)
  | .losing => endLossWaits d.line (countLost (endDrain d.place (finishSlot d.line t)))
  | _ => t

/-- What the durability of a record does (Table 7.2). -/
def recordEffect (c : Creator) (r : JournalRecord) (s : State) : State :=
  match r, c with
  | .moveCommit _ _ _ _ _, _ => updMig (fun m => { m with commitDurable := true }) s
  | .poisonSet _, .drain p =>
    match s.drain? p with
    | some d => drainRecordDurable d s
    | none => s
  | .poisonSet _, .lateCopy i => lateRecordDurable i s
  | .fenceSet _, _ => raise .fenceStored s
  | .shutdown, _ => shutdownDurable s
  | _, _ => s

/-- A record write's outcome reaches the Journal Controller (R124, R125): DONE makes the head record durable and takes
it out of the queue; PROGRAM_FAIL leaves it at the head with its sequence number. -/
def recordOutcome (report : WriteReport) (s : State) : State :=
  let t := s.setJrn { s.jrn with writing := false }
  match report, s.jrn.staging with
  | .stored, r :: rest => recordEffect r.creator r.record (t.setJrn { t.jrn with staging := rest })
  | _, _ => t

end Sys2Proof.Machine
end

