-- ==== Sys2Proof/Machine/Format.lean ====
section
/-! DEFINITION. FORMAT: its acceptance and clearing, its operations in the order of Table 8.4, its completion and failure (ch8, R145 to R149). -/

namespace Sys2Proof.Machine

/-! ### Acceptance (R145, R146) -/

/-- FORMAT is permitted in the present state (R145). -/
def State.mayFormat (s : State) : Bool :=
  !s.unit.holdUp
    && (s.unit.state = .unformatted || s.unit.state = .failed
      || (s.unit.state = .safe && s.unit.safeOrigin = some .prepareOff))

/-- The arguments of FORMAT are acceptable for N_P (R145). -/
def formatArgsOk (nP spares retireWear : Nat) : Bool :=
  16 ≤ spares && spares ≤ maxSpares nP && (retireWear = 0 || 65536 ≤ retireWear)

/-- The RetireWear that a FORMAT argument selects (R145): 0 selects the default. -/
def chosenRetireWear (arg : Nat) : Nat := if arg = 0 then Config.defaultRetireWear else arg

/-- The clearing at entry to FORMATTING (R146), with the alert flags of R180: what an earlier period left is removed;
the tick counter, the boundary, the accept sequence, the settings, the health counters, the last media error record,
the event flags and enables, and the grant counts (R63) are kept. -/
def formatClear (s : State) : State :=
  { s with
    unit := { s.unit with
      safeOrigin := none, standing := none, failCause := none, restartPending := false, stage := none,
      geometry := none, recovery := none }
    buf := { slots := [], drains := [], pressure := false, flush := none }
    map := MapController.unloaded
    mig := { current := none, retireQueue := [], backQueue := [], lastResult := none, levelCheck := none }
    jrn := JournalController.empty
    health := { s.health with spareLow := false, lifeHigh := false } }

/-- FORMAT is accepted (R145 to R147): the clearing, entry to FORMATTING, and the read of step 1 requested. The new format
count stands at 1 until that read decides it (DESIGN CHOICE, log entry 41). -/
def startFormat (spares retireWear : Nat) (s : State) : State :=
  let t := formatClear s
  request (unitRequest .read 0)
    (enterState .formatting (t.setUnit { t.unit with
      format := some
        { spares := spares, retireWear := chosenRetireWear retireWear, step := .oldRecord, newCount := 1,
          imageCheck := 0#32 } }))

/-! ### Operations (R147) -/

/-- The geometry record FORMAT writes (R2, R147): N_P from the straps, the arguments, the new format count. -/
def FormatWork.record (w : FormatWork) (nP : Nat) : GeometryRecord :=
  { nP := nP, spares := w.spares, retireWear := w.retireWear, formatCount := w.newCount }

/-- The image a set of tables gives (R130, R147). -/
def imageOfTables (t : Tables) : Image :=
  { entries := t.entries.map fun e => (e.frame, e.poison), frames := t.frames, fence := t.journaledFence,
    unclean := t.unclean }

/-- The fresh image of step 3 (R147). -/
def FormatWork.image (w : FormatWork) (nP : Nat) : Image := imageOfTables (freshTables (w.record nP))

/-- The header of step 4 (R147). -/
def FormatWork.header (w : FormatWork) : CheckpointHeader :=
  { seq := 1#32, posSeq := 1#32, posSlot := 0, clean := true, imageCheck := w.imageCheck }

/-- The physical line of a step of Table 8.4. -/
def FormatStep.line (nP : Nat) : FormatStep → Nat
  | .oldRecord => 0
  | .wipeSlot k => slotLine nP k
  | .imageLine k => imageLineAt nP .a k
  | .headerA => headerLine nP .a
  | .headerB => headerLine nP .b
  | .newRecord => 0

/-- What a step of Table 8.4 does: the read of step 1, or a write of the line's content. -/
def FormatWork.kind (w : FormatWork) (nP : Nat) : MediaKind :=
  match w.step with
  | .oldRecord => .read
  | .wipeSlot _ => .write (.metaLine .invalid)
  | .imageLine k => .write (.metaLine ((w.image nP).line k))
  | .headerA => .write (.metaLine (.header w.header true))
  | .headerB => .write (.metaLine .invalid)
  | .newRecord => .write (.metaLine (.geometry (w.record nP) true))

/-- The step after a write of Table 8.4 that completed DONE; none after the last. -/
def FormatStep.next (nP : Nat) : FormatStep → Option FormatStep
  | .oldRecord => some (.wipeSlot 0)
  | .wipeSlot k => some (if k + 1 < Config.ringSlots then .wipeSlot (k + 1) else .imageLine 0)
  | .imageLine k => some (if k + 1 < imageLines nP then .imageLine (k + 1) else .headerA)
  | .headerA => some .headerB
  | .headerB => some .newRecord
  | .newRecord => none

/-- The image check after a step completed DONE (R147): an image line adds to it. -/
def FormatWork.checkAfter (w : FormatWork) (nP : Nat) : Word32 :=
  match w.step with
  | .imageLine k => Config.imageCheckStep w.imageCheck ((w.image nP).line k)
  | _ => w.imageCheck

/-- FORMAT stands at a step and requests its operation (R147). -/
def requestFormatStep (w : FormatWork) (s : State) : State :=
  let nP := strapsNP s.unit.sizeStraps
  request (unitRequest (w.kind nP) (w.step.line nP)) (s.setUnit { s.unit with format := some w })

/-- The format count that follows the old record (R2, R147). -/
def newFormatCount (old : Option MetaLine) : Nat :=
  match old with
  | some (.geometry g true) => if geometryInRange g then wrapRaise g.formatCount else 1
  | _ => 1

/-- Step 1's read has an outcome (R147): the new count is decided and step 2 begins. -/
def formatReadOutcome (w : FormatWork) (delivered : Option MetaLine) (s : State) : State :=
  requestFormatStep { w with newCount := newFormatCount delivered, step := .wipeSlot 0 } s

/-! ### Completion and failure (R148, R149) -/

/-- FORMAT completes (R148): geometry in use, fresh tables loaded, ring and descriptor set, sweep count 0, FORMAT_DONE,
ONLINE, and an OPEN record handed over. -/
def completeFormat (w : FormatWork) (s : State) : State :=
  let g := w.record (strapsNP s.unit.sizeStraps)
  let t := loadTables (freshTables g)
    (s.setUnit { s.unit with geometry := some g, standing := some .inUse, format := none })
  let u := t.setJrn { t.jrn with
    head := 0, tail := 0, full := false, nextSeq := 1#32, fence := logicalCount g,
    descriptor := some { area := .a, seq := 1#32, posSeq := 1#32, posSlot := 0, clean := true } }
  let v := u.setTime { u.time with sweeps := 0 }
  handOver .unitControl .opened (enterState .online (raise .formatDone v))

/-- A write of FORMAT has an outcome (R147 to R149). -/
def formatWriteOutcome (w : FormatWork) (report : WriteReport) (s : State) : State :=
  match report with
  | .programFail => enterFailed .formatProgramFail s
  | .stored =>
    let nP := strapsNP s.unit.sizeStraps
    match w.step.next nP with
    | some step => requestFormatStep { w with step := step, imageCheck := w.checkAfter nP } s
    | none => completeFormat w s

end Sys2Proof.Machine
end

