-- ==== Sys2Proof/Machine/Recovery.lean ====
section
/-! DEFINITION. Recovery: geometry record, headers, images, replay, the recovery scan and the entry to ONLINE or WRITE_PROTECTED (ch7, R135 to R139; ch8, R150 to R155). -/

namespace Sys2Proof.Machine

/-! ### Step 1: the geometry record (R150) -/

/-- The recovery in progress stands at a step, and its next read is requested (section 8.4: one at a time). -/
def readNext (w : RecoveryWork) (physical : Nat) (s : State) : State :=
  request (unitRequest .read physical) (s.setUnit { s.unit with recovery := some w })

/-- Recovery ends in UNFORMATTED with a geometry standing and, for MISMATCH, the record found (R150). -/
def endUnformatted (standing : Standing) (found : Option GeometryRecord) (s : State) : State :=
  enterState .unformatted
    (s.setUnit { s.unit with standing := some standing, geometry := found, recovery := none })

/-- A geometry record that a read delivered and that is valid under R2. -/
def validGeometry : Option MetaLine → Option GeometryRecord
  | some (.geometry g true) => if geometryInRange g then some g else none
  | _ => none

/-- Step 1's outcome (R150). -/
def recoverGeometry (w : RecoveryWork) (delivered : Option MetaLine) (s : State) : State :=
  match validGeometry delivered with
  | none => endUnformatted .invalid none s
  | some g =>
    if g.nP ≠ strapsNP s.unit.sizeStraps then endUnformatted .mismatch (some g) s
    else
      readNext { w with step := .headerA } (headerLine g.nP .a)
        (s.setUnit { s.unit with standing := some .inUse, geometry := some g })

/-! ### Step 2: the headers (R151) -/

/-- A usable header (R151): delivered, its own check holds, its position slot in range. -/
def usableHeader : Option MetaLine → Option CheckpointHeader
  | some (.header h true) => if h.posSlot < Config.ringSlots then some h else none
  | _ => none

/-- The candidate order (R151): the higher checkpoint sequence first, area A on equal sequences. Two sequences exactly
2^31 apart are higher neither way and leave A first (log entry 27). -/
def candidateOrder : Option CheckpointHeader → Option CheckpointHeader → List Area
  | none, none => []
  | some _, none => [.a]
  | none, some _ => [.b]
  | some a, some b => if seqHigher b.seq a.seq then [.b, .a] else [.a, .b]

/-- The header of an area. -/
def RecoveryWork.headerOf (w : RecoveryWork) : Area → Option CheckpointHeader
  | .a => w.headerA
  | .b => w.headerB

/-- The image of the first candidate is read from its first line, or recovery fails for want of a candidate (R152). -/
def readImage (w : RecoveryWork) (s : State) : State :=
  match w.candidates with
  | area :: _ =>
    readNext { w with step := .image { line := 0, check := 0#32, items := [] } } (imageLineAt s.nP area 0) s
  | [] => enterFailed (if w.sawInconsistent then .imageInconsistent else .noCheckpoint) s

/-- The first header's outcome (R151). -/
def recoverHeaderA (w : RecoveryWork) (delivered : Option MetaLine) (s : State) : State :=
  readNext { w with step := .headerB, headerA := usableHeader delivered } (headerLine s.nP .b) s

/-- The second header's outcome (R151). -/
def recoverHeaderB (w : RecoveryWork) (delivered : Option MetaLine) (s : State) : State :=
  let b := usableHeader delivered
  readImage { w with headerB := b, candidates := candidateOrder w.headerA b } s

/-! ### Step 3: the image (R135, R152) -/

/-- The fence items of an image. -/
def fencesOf (items : List ImageItem) : List Nat :=
  items.filterMap fun
    | .fence v => some v
    | _ => none

/-- The unclean-count items of an image. -/
def uncleansOf (items : List ImageItem) : List Nat :=
  items.filterMap fun
    | .uncleanCount v => some v
    | _ => none

/-- The map entries of an image, every hold mark clear (R130, R153). -/
def entriesOf (items : List ImageItem) : List MapEntry :=
  items.filterMap fun
    | .entry f p => some { frame := f, poison := p, migrationMark := false, failMark := false }
    | _ => none

/-- The frame records of an image. -/
def framesOf (items : List ImageItem) : List FrameRecord :=
  items.filterMap fun
    | .frame r => some r
    | _ => none

/-- The tables an image loads (R135): entries, frame records, persistent and journaled fence, unclean count. -/
def tablesOf (items : List ImageItem) : Tables :=
  let fence := (fencesOf items).headD 0
  { entries := entriesOf items, frames := framesOf items, fence := fence, journaledFence := fence,
    unclean := (uncleansOf items).headD 0 }

/-- The role of every frame and the owner of every MAPPED frame agree with the geometry and the entries (R152). Two
entries never name one frame, because a frame has one owner. -/
def rolesConsistent (g : GeometryRecord) (t : Tables) : Bool :=
  (t.frames.zipIdx.all fun p => (p.1.role = .metadata) = decide (p.2 < metaCount g))
    && t.frames.all (fun r => r.role ≠ .target)
    && t.frames.countP (fun r => r.role = .mapped) = logicalCount g
    && t.frames.countP (fun r => r.role = .spare || r.role = .retired) = g.spares
    && t.entries.zipIdx.all fun p =>
      match t.frames[p.1.frame]? with
      | some r => r.role = .mapped && r.owner = some p.2
      | none => false

/-- The consistency examination (R152). -/
def consistent (g : GeometryRecord) (t : Tables) : Bool :=
  t.frames.length = g.nP && t.entries.length = logicalCount g && rolesConsistent g t
    && 1 ≤ t.fence && t.fence ≤ logicalCount g

/-- An area is rejected and the next candidate is read (R152). -/
def rejectArea (inconsistent : Bool) (w : RecoveryWork) (s : State) : State :=
  readImage { w with
    candidates := w.candidates.tail, sawInconsistent := w.sawInconsistent || inconsistent } s

/-- An area is accepted (R152): the descriptor is set from its header, and replay begins at its position (R136). -/
def acceptArea (area : Area) (h : CheckpointHeader) (t : Tables) (w : RecoveryWork) (s : State) : State :=
  let u := s.setJrn { s.jrn with
    descriptor := some { area := area, seq := h.seq, posSeq := h.posSeq, posSlot := h.posSlot, clean := h.clean } }
  readNext { w with
      step := .replay
        { judged := 0, slot := h.posSlot, expected := h.posSeq, applied := none, span := 0, tables := t } }
    (slotLine s.nP h.posSlot) u

/-- The items a delivered line carries; a line that is no image line carries none. -/
def itemsOf : MetaLine → List ImageItem
  | .image items => items
  | _ => []

/-- The judgement after the last image line of an area (R152). -/
def judgeImage (area : Area) (h : CheckpointHeader) (g : GeometryRecord) (x : ImageWork) (w : RecoveryWork)
    (s : State) : State :=
  if x.check ≠ h.imageCheck then rejectArea false w s
  else
    let t := tablesOf x.items.reverse.flatten
    if consistent g t then acceptArea area h t w s else rejectArea true w s

/-- An image line's outcome (R152). -/
def recoverImageLine (x : ImageWork) (w : RecoveryWork) (delivered : Option MetaLine) (s : State) : State :=
  match delivered, w.candidates, s.geometryInUse with
  | some m, area :: _, some g =>
    let y : ImageWork :=
      { line := x.line + 1, check := Config.imageCheckStep x.check m, items := itemsOf m :: x.items }
    if y.line < imageLines g.nP then
      readNext { w with step := .image y } (imageLineAt g.nP area y.line) s
    else
      match w.headerOf area with
      | some h => judgeImage area h g y w s
      | none => rejectArea false w s
  | _, _, _ => rejectArea false w s

/-! ### Step 4: replay (R136 to R139) -/

/-- The record a slot holds when it is valid (R120). -/
def validSlot : Option MetaLine → Option (Word32 × JournalRecord)
  | some (.record seq r true) => some (seq, r)
  | _ => none

/-- The conditions and the effect of a record on the tables (R137, Table 7.7); none when the record contradicts them. -/
def applyRecord (g : GeometryRecord) (r : JournalRecord) (t : Tables) : Option Tables :=
  match r with
  | .moveCommit l new old fate poison =>
    match t.frames[old]?, t.frames[new]? with
    | some o, some n =>
      if l < logicalCount g && o.role = .mapped && o.owner = some l && n.role = .spare && fate ≠ .invalid then
        some { t with
          entries := t.entries.modify l fun e => { e with frame := new, poison := poison }
          frames :=
            (t.frames.modify new fun x => { x with role := .mapped, owner := some l }).modify old fun x =>
              { x with role := if fate = .spare then .spare else .retired, owner := none, wanted := false } }
      else none
    | _, _ => none
  | .spareRetire f =>
    match t.frames[f]? with
    | some x =>
      if x.role = .spare then some { t with frames := t.frames.modify f fun y => { y with role := .retired } } else none
    | none => none
  | .poisonSet line =>
    if line < logicalCount g * linesPerFrame then
      some { t with entries := t.entries.modify (frameOf line) fun e =>
        { e with poison := putFlag e.poison (indexOf line) true } }
    else none
  | .poisonClear line =>
    if line < logicalCount g * linesPerFrame then
      some { t with entries := t.entries.modify (frameOf line) fun e =>
        { e with poison := putFlag e.poison (indexOf line) false } }
    else none
  | .fenceSet v =>
    if 1 ≤ v && v ≤ logicalCount g then some { t with fence := v, journaledFence := v } else none
  | .shutdown => some t
  | .opened => some t
  | .unknown _ => none

/-- How a slot is judged (R136, Table 7.6). -/
inductive Judgement where
  | skip
  | apply (tables : Tables)
  | contradiction
  | stop
  deriving DecidableEq, Repr

/-- The judgement of a slot (Table 7.6, in its order). -/
def judgeSlot (g : GeometryRecord) (x : ReplayWork) (slot : Option (Word32 × JournalRecord)) : Judgement :=
  match slot with
  | none => .skip
  | some (seq, r) =>
    if seq = x.expected then
      match applyRecord g r x.tables with
      | some t => .apply t
      | none => .contradiction
    else
      match x.applied with
      | some a => if a.seq = seq && a.record = r then .skip else .stop
      | none => .stop

/-- The replay after a slot that does not end it: the slot is counted, and an applied record is kept with its slot. -/
def ReplayWork.advance (x : ReplayWork) (slot : Option (Word32 × JournalRecord)) (j : Judgement) : ReplayWork :=
  let y := { x with judged := x.judged + 1, slot := nextSlot x.slot }
  match j, slot with
  | .apply t, some (seq, r) =>
    { y with
      expected := x.expected + 1, applied := some { seq := seq, record := r, slot := x.slot },
      span := x.judged + 1, tables := t }
  | _, _ => y

/-- The shutdown before the start was clean (R139). -/
def cleanShutdown (h : CheckpointHeader) (applied : Option AppliedRecord) : Bool :=
  match applied with
  | some a => a.record = .shutdown
  | none => h.clean

/-- The other area's header read usable with a higher checkpoint sequence (R138, R153). -/
def passedOverHigher (w : RecoveryWork) (area : Area) (h : CheckpointHeader) : Bool :=
  match w.headerOf area.other with
  | some o => seqHigher o.seq h.seq
  | none => false

/-- The next sequence number (R138). -/
def nextSeqAfterReplay (h : CheckpointHeader) (applied : Option AppliedRecord) (jump : Bool) : Word32 :=
  if jump then h.posSeq + BitVec.ofNat 32 Config.sequenceJump
  else
    match applied with
    | some a => a.seq + 1
    | none => h.posSeq

/-- The ring as recovery takes it up (R138). -/
def ringAfterReplay (h : CheckpointHeader) (x : ReplayWork) (jump : Bool) (j : JournalController) :
    JournalController :=
  { j with
    tail := h.posSlot
    head := (x.applied.map fun a => nextSlot a.slot).getD h.posSlot
    full := decide (x.span = Config.ringSlots)
    nextSeq := nextSeqAfterReplay h x.applied jump
    fence := x.tables.journaledFence }

/-! ### Step 5: the recovery scan, and completion (R118, R153, R154) -/

/-- A frame record after the scan's marking (R118): MAPPED and at or over RetireWear or RetireErrors gains the
retire-wanted mark; a frame that is not MAPPED keeps none. -/
def scanFrame (retireWear retireErrors : Nat) (r : FrameRecord) : FrameRecord :=
  { r with
    wanted := r.role = .mapped && (r.wanted || decide (retireWear ≤ r.wear) || decide (retireErrors ≤ r.corrected)) }

/-- The tables after the scan (R153): marks set, and the unclean count raised after an unclean shutdown. -/
def scanTables (retireWear retireErrors : Nat) (clean : Bool) (t : Tables) : Tables :=
  { t with
    frames := t.frames.map (scanFrame retireWear retireErrors)
    unclean := if clean then t.unclean else satRaise max32 t.unclean }

/-- Replay ends (R138, R153, R154): the ring is taken up, the tables are scanned and loaded, the unit enters
WRITE_PROTECTED or ONLINE, the checkpoint that follows recovery starts, and OPEN is handed over after a clean shutdown. -/
def endReplay (area : Area) (h : CheckpointHeader) (g : GeometryRecord) (x : ReplayWork) (truncated : Bool)
    (w : RecoveryWork) (s : State) : State :=
  let clean := cleanShutdown h x.applied
  let t := if truncated then raise .recoveryTruncated s else s
  let u := loadTables (scanTables g.retireWear t.time.active.retireErrors clean x.tables)
    (t.setJrn (ringAfterReplay h x (truncated || passedOverHigher w area h) t.jrn))
  let v := enterState (if u.map.latch then .writeProtected else .online) (u.setUnit { u.unit with recovery := none })
  let c := startCheckpoint false v
  if clean then handOver .unitControl .opened c else c

/-- A slot's outcome in replay (R136). -/
def recoverSlot (x : ReplayWork) (w : RecoveryWork) (delivered : Option MetaLine) (s : State) : State :=
  match w.candidates, s.geometryInUse with
  | area :: _, some g =>
    match w.headerOf area with
    | some h =>
      let slot := validSlot delivered
      let j := judgeSlot g x slot
      let y := x.advance slot j
      match j with
      | .stop => endReplay area h g x false w s
      | .contradiction => endReplay area h g x true w s
      | _ =>
        if y.judged < Config.ringSlots then
          readNext { w with step := .replay y } (slotLine g.nP y.slot) s
        else endReplay area h g y false w s
    | none => s
  | _, _ => s

/-- The outcome of a read of recovery (R150 to R153). -/
def recoveryOutcome (w : RecoveryWork) (delivered : Option MetaLine) (s : State) : State :=
  match w.step with
  | .geometry => recoverGeometry w delivered s
  | .headerA => recoverHeaderA w delivered s
  | .headerB => recoverHeaderB w delivered s
  | .image x => recoverImageLine x w delivered s
  | .replay x => recoverSlot x w delivered s

end Sys2Proof.Machine
end

