-- ==== Sys2Proof/Machine/TimeBase.lean ====
section
/-! DEFINITION. The time base: settings and their commit, health evaluation, sweep boundaries, the tick, and the attempt deadlines (ch10; ch4, R75 to R77). -/

namespace Sys2Proof.Machine

/-! ### Settings (R174, R175) -/

/-- The value of the setting with an identifier (Table 11.4). -/
def Settings.get (x : Settings) (id : Nat) : Option Nat :=
  match id with
  | 1 => some x.drainAge
  | 2 => some x.highWater
  | 3 => some x.lowWater
  | 4 => some x.sweepPeriod
  | 5 => some x.checkpointEvery
  | 6 => some x.levelThreshold
  | 7 => some x.retireErrors
  | 8 => some x.mediaTimeout
  | 9 => some x.spareAlert
  | 10 => some x.lifeAlert
  | _ => none

/-- The setting with an identifier replaced. -/
def Settings.put (x : Settings) (id v : Nat) : Settings :=
  match id with
  | 1 => { x with drainAge := v }
  | 2 => { x with highWater := v }
  | 3 => { x with lowWater := v }
  | 4 => { x with sweepPeriod := v }
  | 5 => { x with checkpointEvery := v }
  | 6 => { x with levelThreshold := v }
  | 7 => { x with retireErrors := v }
  | 8 => { x with mediaTimeout := v }
  | 9 => { x with spareAlert := v }
  | 10 => { x with lifeAlert := v }
  | _ => x

/-- The range of a setting (Table 10.2); an identifier that names none has an empty range. -/
def settingRange (id : Nat) : Nat × Nat :=
  match id with
  | 1 => (16, 16000000)
  | 2 => (2, 512)
  | 3 => (1, 511)
  | 4 => (10000, 60000000)
  | 5 => (1, 65535)
  | 6 => (1024, 2147483647)
  | 7 => (1, 65535)
  | 8 => (1000, 1000000)
  | 9 => (0, 100)
  | 10 => (1, 255)
  | _ => (1, 0)

/-- A value lies in its setting's range (Table 10.2). -/
def settingInRange (id v : Nat) : Bool := (settingRange id).1 ≤ v && v ≤ (settingRange id).2

/-! ### Commit (R176, R177) -/

/-- A settings commit is rejected: the sets differ and the staged LowWater is not below its HighWater (R176). -/
def State.commitRejected (s : State) : Bool :=
  s.time.staged ≠ s.time.active && !(decide (s.time.staged.lowWater < s.time.staged.highWater))

/-- The staged set becomes the active set (R176), and the buffer takes up the watermarks (R177); every other setting
is read where it is used. -/
def installSettings (s : State) : State :=
  raise .settingsCommitted (evalPressure (s.setTime { s.time with active := s.time.staged }))

/-- A settings commit (R176): nothing when the sets are equal, an install or a rejection otherwise. -/
def commitSettingsNow (s : State) : State :=
  if s.time.staged = s.time.active then s
  else if s.commitRejected then raise .settingsRejected s
  else installSettings s

/-! ### Derived health attributes (R179) -/

/-- RetiredFrames (Table 10.5). -/
def State.retiredFrames (s : State) : Nat := s.map.frames.countP fun r => r.role = .retired

/-- SpareRemainingPct (Table 10.5). -/
def State.spareRemainingPct (s : State) : Nat := 100 * s.map.pool.length / s.spareCount

/-- The highest wear among MAPPED frames. -/
def State.hottestWear (s : State) : Nat :=
  s.map.frames.foldl (fun m r => if r.role = .mapped then max m r.wear else m) 0

/-- LifeUsedPct (Table 10.5). -/
def State.lifeUsedPct (s : State) : Nat := min 255 (100 * s.hottestWear / s.retireWear)

/-- PoisonedLines (Table 10.5). -/
def State.poisonedLines (s : State) : Nat := s.map.entries.foldl (fun n e => n + countFlags e.poison) 0

/-! ### The work of a sweep boundary (R171 to R173, R180) -/

/-- The health evaluation (R180): both flags set to their conditions, HEALTH_ALERT once when either goes from clear to set. -/
def evaluateHealth (s : State) : State :=
  let low := decide (s.spareRemainingPct < s.time.active.spareAlert)
  let high := decide (s.time.active.lifeAlert ≤ s.lifeUsedPct)
  let t := s.setHealth { s.health with spareLow := low, lifeHigh := high }
  if (low && !s.health.spareLow) || (high && !s.health.lifeHigh) then raise .healthAlert t else t

/-- The sweep count and the CheckpointEvery trigger (R173). -/
def countSweep (s : State) : State :=
  let n := satRaise max16 s.time.sweeps
  let t := s.setTime { s.time with sweeps := n }
  if s.time.active.checkpointEvery ≤ n then triggerCheckpoint t else t

/-- Step 1 of a boundary (Table 10.1): the settings commit, not in RECOVERING; then the next boundary is set (R171). -/
def boundaryCommit (s : State) : State :=
  let t := if s.unit.state = .recovering then s else commitSettingsNow s
  t.setTime { t.time with nextBoundary := s.time.nextBoundary + BitVec.ofNat 32 t.time.active.sweepPeriod }

/-- Steps 2 to 4 of a boundary (Table 10.1), in ONLINE and WRITE_PROTECTED. -/
def boundarySweep (s : State) : State :=
  if s.running then countSweep (evaluateHealth (wearSweep s)) else s

/-- The work of a sweep boundary (R172), in the order of Table 10.1. -/
def boundaryWork (s : State) : State := ringTrigger (boundarySweep (boundaryCommit s))

/-- The sweep boundary falls in the happening in which the counter reaches the held value (R171). -/
def State.boundaryFalls (s : State) : Bool := s.unit.state ≠ .reset && s.time.tick = s.time.nextBoundary

/-! ### Attempt deadlines (R75 to R77) -/

/-- A retry times out (R77): SECOND_TIMEOUT recorded, MEDIA_FAULT raised, FAILED entered. -/
def secondTimeout (op : InFlight) (s : State) : State :=
  enterFailed .secondTimeout (raise .mediaFault (recordError op .secondTimeout 0 s))

/-- An attempt reaches its deadline (R76, R77). -/
def attemptTimesOut (op : InFlight) (s : State) : State :=
  if op.id.retry then secondTimeout op s else retryAttempt op s

/-! ### The tick (R170; log entry 2) -/

/-- The stamp of a slot, or the tick of its re-dirty mark, stands exactly 2^30 ticks behind (R26). -/
def needsClamp (now : Word32) (sl : Slot) : Bool :=
  ageAt now sl.stamp = Config.stampClamp
    || (match sl.redirty with
        | some m => ageAt now m.tick = Config.stampClamp
        | none => false)

/-- The age of a DIRTY slot reaches DrainAge at this tick (R28). -/
def reachesDrainAge (s : State) (sl : Slot) : Bool :=
  !sl.draining && ageAt s.time.tick sl.stamp = s.time.active.drainAge

/-- The commands the passing of time gives at a tick (log entry 2): stamps to be advanced, slots whose age reaches
DrainAge, attempts whose deadline is reached, and the sweep boundary. -/
def timeCommands (s : State) : List Instr :=
  ((s.buf.slots.filter (needsClamp s.time.tick)).map fun sl => Instr.stampAgeClamp sl.line)
    ++ ((s.buf.slots.filter (reachesDrainAge s)).map fun sl => Instr.drainAgeReached sl.line)
    ++ (((List.finRange 8).filter fun p => (s.overdueAttempt? p).isSome).map fun p => Instr.attemptTimeout p)
    ++ (if s.boundaryFalls then [Instr.sweepBoundary] else [])

/-- One tick (R170): the counter rises by 1 in every state but RESET, and what time brings about at the new tick waits
in the queue. Nothing leaves the ports. -/
def tick (s : State) : State :=
  if s.unit.state = .reset then s
  else
    let t := (beginHappening s).setTime { s.time with tick := s.time.tick + 1 }
    t.setPending (t.pending ++ timeCommands t)

end Sys2Proof.Machine
end

