-- ==== Sys2Proof/Machine/Happening.lean ====
section
/-! DEFINITION. One happening: a command's own effect, the blocks' follow-up events of the same happening, and the grants that end it (log entries 1, 19 and 21). -/

namespace Sys2Proof.Machine

/-- The follow-up events of the blocks, in the order in which they are tried (log entry 19). Each answers the state
after the event where its rule's conditions hold. -/
def followUps : List (State → Option State) :=
  [abortComplete?, migrationSwitch?, creatorJoin?, flushDone?, persistDone?, waitQueueTake?, persistTake?,
   migrationTake?, quiesceEnd?, lateCopyStart?, drainLockEmptyingEnd?, closingEmptyingEnd?, closingCheckpointStart?,
   imageFix?, recordIssue?, drainIssue?]

/-- The first follow-up event whose conditions hold, made. -/
def nextFollowUp (s : State) : Option State := followUps.findSome? fun e => e s

/-- Follow-up events repeated until none is enabled, at most n of them. -/
def followUpTo : Nat → State → State
  | 0, s => s
  | n + 1, s =>
    match nextFollowUp s with
    | some t => followUpTo n t
    | none => s

/-- The bound on follow-up events of one happening (log entry 26). -/
def followUpBound : Nat := 512

/-- The rest of a happening: every follow-up event, then the arrival of requests and the grants (R66, R67). -/
def settle (s : State) : State := grantAll (followUpTo followUpBound s)

/-- One happening: nothing has left the ports yet, the command's own effect, then what follows from it (log entry 1). -/
def happening (body : State → State) (s : State) : State := settle (body (beginHappening s))

/-- No follow-up event is enabled, no request is arriving and none can be granted. -/
def State.quiet (s : State) : Bool :=
  (nextFollowUp s).isNone && s.media.arriving.isEmpty && (grantOne s).isNone

/-- A follow-up event commanded by name: made when its conditions hold, nothing otherwise (log entry 3). -/
def perform (e : State → Option State) (s : State) : State := (e s).getD s

end Sys2Proof.Machine
end

