-- ==== Sys2Proof/Machine/FollowUpCommands.lean ====
section
/-! DEFINITION. The meanings of the blocks' own events, commanded by name: each is made when its rule's conditions hold and does nothing otherwise (log entries 1 and 3). -/

namespace Sys2Proof.Machine

/-- WAIT_QUEUE_TAKE (R57). -/
def execWaitQueueTake (s : State) : Host.Outcome State Fault Refusal := .next (happening (perform waitQueueTake?) s)

/-- PERSIST_TAKE (R59). -/
def execPersistTake (s : State) : Host.Outcome State Fault Refusal := .next (happening (perform persistTake?) s)

/-- PERSIST_DONE (R60). -/
def execPersistDone (s : State) : Host.Outcome State Fault Refusal := .next (happening (perform persistDone?) s)

/-- FLUSH_DONE (R42). -/
def execFlushDone (s : State) : Host.Outcome State Fault Refusal := .next (happening (perform flushDone?) s)

/-- DRAIN_ISSUE (R29, R31). -/
def execDrainIssue (s : State) : Host.Outcome State Fault Refusal := .next (happening (perform drainIssue?) s)

/-- MEDIA_GRANT (R67, R69): the grants that end every happening. -/
def execMediaGrant (s : State) : Host.Outcome State Fault Refusal := .next (happening grantAll s)

/-- MIGRATION_TAKE (R87). -/
def execMigrationTake (s : State) : Host.Outcome State Fault Refusal := .next (happening (perform migrationTake?) s)

/-- QUIESCE_END (R88, R89). -/
def execQuiesceEnd (s : State) : Host.Outcome State Fault Refusal := .next (happening (perform quiesceEnd?) s)

/-- MIGRATION_SWITCH (R99 to R101). -/
def execMigrationSwitch (s : State) : Host.Outcome State Fault Refusal :=
  .next (happening (perform migrationSwitch?) s)

/-- LATE_COPY_START (R101). -/
def execLateCopyStart (s : State) : Host.Outcome State Fault Refusal := .next (happening (perform lateCopyStart?) s)

/-- ABORT_COMPLETE (R103). -/
def execAbortComplete (s : State) : Host.Outcome State Fault Refusal := .next (happening (perform abortComplete?) s)

/-- RECORD_WRITE_ISSUE (R123). -/
def execRecordWriteIssue (s : State) : Host.Outcome State Fault Refusal := .next (happening (perform recordIssue?) s)

/-- CREATOR_JOIN_QUEUE (R122). -/
def execCreatorJoinQueue (s : State) : Host.Outcome State Fault Refusal := .next (happening (perform creatorJoin?) s)

/-- CHECKPOINT_IMAGE_FIX (R129, R130). -/
def execCheckpointImageFix (s : State) : Host.Outcome State Fault Refusal := .next (happening (perform imageFix?) s)

/-- DRAIN_LOCK_EMPTYING_END (R160). -/
def execDrainLockEmptyingEnd (s : State) : Host.Outcome State Fault Refusal :=
  .next (happening (perform drainLockEmptyingEnd?) s)

/-- CLOSING_EMPTYING_END (R164). -/
def execClosingEmptyingEnd (s : State) : Host.Outcome State Fault Refusal :=
  .next (happening (perform closingEmptyingEnd?) s)

/-- CLOSING_CHECKPOINT_START (R164). -/
def execClosingCheckpointStart (s : State) : Host.Outcome State Fault Refusal :=
  .next (happening (perform closingCheckpointStart?) s)

end Sys2Proof.Machine
end

