-- ==== Sys2Proof/Machine/HostCommands.lean ====
section
/-! DEFINITION. The meanings of the host port's requests (ch3; ch11 R188). -/

namespace Sys2Proof.Machine

/-- HOST_READ (R46, R47, R49 to R53). -/
def execHostRead (tag : BitVec 5) (line : BitVec 26) (s : State) : Host.Outcome State Fault Refusal :=
  .next (happening (hostReadArrives tag line.toNat) s)

/-- HOST_WRITE (R46, R47, R49, R50, R55 to R58). -/
def execHostWrite (tag : BitVec 5) (line : BitVec 26) (mask : Flags64) (data : LineData) (s : State) :
    Host.Outcome State Fault Refusal :=
  .next (happening (hostWriteArrives tag line.toNat mask data) s)

/-- HOST_PERSIST (R46, R47, R59). -/
def execHostPersist (tag : BitVec 5) (line : BitVec 26) (s : State) : Host.Outcome State Fault Refusal :=
  .next (happening (hostPersistArrives tag line.toNat) s)

/-- HOST_UNKNOWN_KIND (R46): discarded with HOST_PROTOCOL raised; its fields are not examined. -/
def execHostUnknownKind (_tag : BitVec 5) (_line : BitVec 26) (s : State) : Host.Outcome State Fault Refusal :=
  .next (happening hostUnknownArrives s)

end Sys2Proof.Machine
end

