-- ==== Sys2Proof/Machine/Crc.lean ====
section
/-! DEFINITION. The CRC-8 of the management link (R182). -/

namespace Sys2Proof.Machine

/-- One bit of the check: polynomial 0x07, most significant bit first (R182). -/
def crcBit (c : Byte) : Byte := if c.getLsbD 7 then (c <<< 1) ^^^ 7#8 else c <<< 1

/-- One byte taken into the check. -/
def crcByte (c b : Byte) : Byte :=
  crcBit (crcBit (crcBit (crcBit (crcBit (crcBit (crcBit (crcBit (c ^^^ b))))))))

/-- The CRC-8 of a message's bytes, from an initial value of 0, no reflection and no final inversion (R182). -/
def crc8 (bytes : List Byte) : Byte := bytes.foldl crcByte 0#8

end Sys2Proof.Machine
end

