-- ==== Sys2Proof/Decode.lean ====
section
/-! DEFINITION. Reading commands: the opcode table's words (no row has bits), and the management link's request messages (R182, R183), with their encoder. -/

namespace Sys2Proof

/-- The command a word spells by the table's bits. Every row of spec/opcode_table.json has an empty list of bit
fields, so no word spells a command (log entry 24). -/
def decodeTableWord (_nbits _w : Nat) : Option Instr := none

/-! ### Host requests (R188) -/

/-- The command the fields of a host request give (Table 11.12, R46, R188): kind 0 READ, 1 WRITE, 2 PERSIST, and 3, which
names no kind. A READ and a PERSIST ignore the byte mask and the data. -/
def decodeHostRequest (kind : BitVec 2) (tag : BitVec 5) (line : BitVec 26) (mask : Flags64) (data : LineData) : Instr :=
  match kind.toNat with
  | 0 => .hostRead tag line
  | 1 => .hostWrite tag line mask data
  | 2 => .hostPersist tag line
  | _ => .hostUnknownKind tag line

/-- The kind code of a command that a host request gives (Table 11.12, R188). -/
def hostKind : Instr → Option (BitVec 2)
  | .hostRead _ _ => some 0#2
  | .hostWrite _ _ _ _ => some 1#2
  | .hostPersist _ _ => some 2#2
  | .hostUnknownKind _ _ => some 3#2
  | _ => none

/-! ### Request messages (R182) -/

/-- The greatest parameter length of a request (Table 11.1). -/
def maxParams : Nat := 16

/-- A write transfer is a well-formed request (R182): exactly 4 + n bytes were carried, n its parameter length byte, and
its CRC-8 holds. Of a transfer with n above 16 the receiver does not keep the CRC-8, which then cannot hold. -/
def wellFormedTransfer (bytes : List Byte) : Bool :=
  match bytes[2]? with
  | some n =>
    n.toNat ≤ maxParams && bytes.length = 4 + n.toNat
      && bytes[3 + n.toNat]? = some (Machine.crc8 (bytes.take (3 + n.toNat)))
  | none => false

/-- The tag echoed for a request that is not well formed: the second byte received, or 0 (R182). -/
def echoedTag (bytes : List Byte) : Byte := bytes[1]?.getD 0#8

/-- The choice byte of a SET_FENCE request selects the persistent fence (Table 11.3). -/
def persistentChoice (params : List Byte) : Bool := params[2]? = some 1#8

/-- The command of Table 11.3 a well-formed request's code names; a SET_FENCE of any choice but persistent is judged as
the volatile one. -/
def decodeRequest (code tag : Byte) (params : List Byte) : Instr :=
  match code.toNat with
  | 0x01 => .getStatus tag params
  | 0x02 => .getHealth tag params
  | 0x03 => .getIdentity tag params
  | 0x10 => .readMapEntry tag params
  | 0x11 => .readFrameRecord tag params
  | 0x12 => .readPoolEntry tag params
  | 0x20 => .getSetting tag params
  | 0x21 => .stageSetting tag params
  | 0x22 => .commitSettings tag params
  | 0x23 => .discardStaged tag params
  | 0x30 => if persistentChoice params then .setFencePersistent tag params else .setFenceVolatile tag params
  | 0x31 => .flush tag params
  | 0x32 => .requestMigration tag params
  | 0x33 => .abortMigration tag params
  | 0x34 => .checkpointNow tag params
  | 0x40 => .prepareOff tag params
  | 0x41 => .resume tag params
  | 0x42 => .restart tag params
  | 0x43 => .format tag params
  | 0x50 => .readEvents tag params
  | 0x51 => .clearEvents tag params
  | 0x52 => .setEventEnable tag params
  | _ => .unknownCommand code tag params

/-- The code of the link command a constructor stands for (Table 11.3). -/
def commandCode : Instr → Option Nat
  | .getStatus _ _ => some 0x01
  | .getHealth _ _ => some 0x02
  | .getIdentity _ _ => some 0x03
  | .readMapEntry _ _ => some 0x10
  | .readFrameRecord _ _ => some 0x11
  | .readPoolEntry _ _ => some 0x12
  | .getSetting _ _ => some 0x20
  | .stageSetting _ _ => some 0x21
  | .commitSettings _ _ => some 0x22
  | .discardStaged _ _ => some 0x23
  | .setFenceVolatile _ _ => some 0x30
  | .setFencePersistent _ _ => some 0x30
  | .flush _ _ => some 0x31
  | .requestMigration _ _ => some 0x32
  | .abortMigration _ _ => some 0x33
  | .checkpointNow _ _ => some 0x34
  | .prepareOff _ _ => some 0x40
  | .resume _ _ => some 0x41
  | .restart _ _ => some 0x42
  | .format _ _ => some 0x43
  | .readEvents _ _ => some 0x50
  | .clearEvents _ _ => some 0x51
  | .setEventEnable _ _ => some 0x52
  | _ => none

/-- The command codes of Table 11.3. -/
def tableCodes : List Nat :=
  [0x01, 0x02, 0x03, 0x10, 0x11, 0x12, 0x20, 0x21, 0x22, 0x23, 0x30, 0x31, 0x32, 0x33, 0x34, 0x40, 0x41, 0x42, 0x43,
   0x50, 0x51, 0x52]

/-- A code names a command of Table 11.3. -/
def knownCode (code : Byte) : Bool := tableCodes.contains code.toNat

/-- The command one write transfer gives (R182, R183). -/
def decodeTransfer (bytes : List Byte) : Instr :=
  if wellFormedTransfer bytes then
    decodeRequest (bytes[0]?.getD 0#8) (bytes[1]?.getD 0#8) ((bytes.drop 3).take (bytes[2]?.getD 0#8).toNat)
  else .requestNotWellFormed bytes

/-! ### The encoder -/

/-- A request message (Table 11.1). -/
def requestMessage (code tag : Byte) (params : List Byte) : List Byte :=
  let body := code :: tag :: BitVec.ofNat 8 params.length :: params
  body ++ [Machine.crc8 body]

/-- The tag and the parameter bytes of a link command. -/
def linkFields : Instr → Option (Byte × List Byte)
  | .getStatus t p => some (t, p)
  | .getHealth t p => some (t, p)
  | .getIdentity t p => some (t, p)
  | .readMapEntry t p => some (t, p)
  | .readFrameRecord t p => some (t, p)
  | .readPoolEntry t p => some (t, p)
  | .getSetting t p => some (t, p)
  | .stageSetting t p => some (t, p)
  | .commitSettings t p => some (t, p)
  | .discardStaged t p => some (t, p)
  | .setFenceVolatile t p => some (t, p)
  | .setFencePersistent t p => some (t, p)
  | .flush t p => some (t, p)
  | .requestMigration t p => some (t, p)
  | .abortMigration t p => some (t, p)
  | .checkpointNow t p => some (t, p)
  | .prepareOff t p => some (t, p)
  | .resume t p => some (t, p)
  | .restart t p => some (t, p)
  | .format t p => some (t, p)
  | .readEvents t p => some (t, p)
  | .clearEvents t p => some (t, p)
  | .setEventEnable t p => some (t, p)
  | _ => none

/-- The bytes of the write transfer that gives a command: a request message for a command of Table 11.3 or an unknown
code, the bytes as they were for a transfer that is not well formed; none for a command that comes another way. -/
def encodeTransfer (i : Instr) : Option (List Byte) :=
  match i with
  | .unknownCommand code tag params => some (requestMessage code tag params)
  | .requestNotWellFormed bytes => some bytes
  | _ =>
    match commandCode i, linkFields i with
    | some code, some f => some (requestMessage (BitVec.ofNat 8 code) f.1 f.2)
    | _, _ => none

end Sys2Proof
end

