-- ==== Sys2Proof/Machine/Link.lean ====
section
/-! DEFINITION. The Management Link: response messages (R182), the judgement of requests (R183), the payloads of Tables 11.5 to 11.9 (R187). -/

namespace Sys2Proof.Machine

/-! ### Codes -/

/-- Status codes (Table 11.2). -/
def Status.code : Status → Byte
  | .ok => 0x00#8 | .accepted => 0x01#8 | .busy => 0x02#8 | .badState => 0x03#8 | .badArg => 0x04#8
  | .badCrc => 0x05#8 | .unknownCommand => 0x06#8

/-- Unit state codes (Table 11.11). -/
def UnitState.code : UnitState → Nat
  | .reset => 0 | .unformatted => 1 | .formatting => 2 | .recovering => 3 | .online => 4 | .writeProtected => 5
  | .closing => 6 | .drainLock => 7 | .safe => 8 | .failed => 9

/-- Migration reason codes (Table 11.11). -/
def Reason.code : Reason → Nat
  | .retireWear => 1 | .retireError => 2 | .retireProgram => 3 | .level => 4 | .manual => 5

/-- SAFE origin codes (Table 11.5). -/
def SafeOrigin.code : SafeOrigin → Nat
  | .drainLock => 1 | .prepareOff => 2

/-- Geometry standing codes (Table 11.5). -/
def Standing.code : Standing → Nat
  | .inUse => 1 | .invalid => 2 | .mismatch => 3

/-- Failure cause codes (Table 11.5). -/
def FailCause.code : FailCause → Nat
  | .secondTimeout => 1 | .noCheckpoint => 2 | .imageInconsistent => 3 | .formatProgramFail => 4

/-- Sequence stage codes (Table 11.5). -/
def Stage.code : Stage → Nat
  | .emptying => 1 | .checkpoint => 2 | .shutdown => 3

/-- Migration phase codes other than IDLE (Table 11.5). -/
def MigPhase.code : MigPhase → Nat
  | .quiesce => 1 | .copy => 2 | .commitWait => 3

/-- Checkpoint phase codes (Table 11.5). -/
def CheckpointPhase.code : CheckpointPhase → Nat
  | .starting => 1 | .image => 2 | .header => 3

/-- Checkpoint area codes (Table 11.5). -/
def Area.code : Area → Nat
  | .a => 1 | .b => 2

/-- Migration result codes (Table 11.5). -/
def MigResult.code : MigResult → Nat
  | .committed => 1 | .aborted => 2 | .noSpare => 3 | .overdue => 4 | .evicted => 5

/-- Level check outcome codes (Table 11.5). -/
def LevelOutcome.code : LevelOutcome → Nat
  | .queued => 1 | .dropped => 2 | .belowThreshold => 3 | .levelPending => 4 | .noSpare => 5 | .protected_ => 6

/-- Media error event codes (Table 11.6). -/
def MediaEvent.code : MediaEvent → Nat
  | .corrected => 1 | .uncorrectable => 2 | .programFail => 3 | .timeout => 4 | .secondTimeout => 5

/-- Request class codes (Table 11.6). -/
def MediaClass.code : MediaClass → Nat
  | .journal => 1 | .hostRead => 2 | .drain => 3 | .checkpoint => 4 | .copy => 5

/-- Frame role codes (Table 11.9). -/
def roleCode : Role → Nat
  | .metadata => 0 | .mapped => 1 | .spare => 2 | .target => 3 | .retired => 4

/-- The code of an item that may be absent: 0 when it is (R187). -/
def optCode {α : Type} (f : α → Nat) (x : Option α) : Nat := (x.map f).getD 0

/-! ### Response messages (R182) -/

/-- A response message: status, tag, result length, results, CRC-8 (Table 11.1). -/
def responseMessage (status tag : Byte) (results : List Byte) : List Byte :=
  let body := status :: tag :: BitVec.ofNat 8 results.length :: results
  body ++ [crc8 body]

/-- The bytes of a pending response. -/
def Response.bytes (r : Response) : List Byte := responseMessage r.status.code r.tag r.results

/-- The message a read transfer returns: the pending response, or NO_RESPONSE with tag 0 and no results (R182). -/
def State.readMessage (s : State) : List Byte :=
  match s.link.response with
  | some r => r.bytes
  | none => responseMessage 0x07#8 0#8 []

/-- n bytes read from a message: bytes past the CRC-8 read 0xFF (R182). -/
def readBytes (message : List Byte) (n : Nat) : List Byte :=
  message.take n ++ List.replicate (n - message.length) 0xFF#8

/-- A read transfer of n bytes (R182): the response is consumed once its CRC-8 byte has been read. -/
def readTransfer (n : Nat) (s : State) : State :=
  let t := s.setOut { s.out with link := readBytes s.readMessage n }
  if s.readMessage.length ≤ n then t.setLink { t.link with response := none } else t

/-! ### Judging a request (R183, R184) -/

/-- Checks 3 to 5 of R183 in their order, after the first two: parameter length, state, arguments; a request that
passes them is executed by `run`, which also makes its response. In RESET the link does not answer (R182). -/
def judge (tag : Byte) (params : List Byte) (len : Nat) (permitted argsOk : State → Bool) (run : State → State)
    (s : State) : State :=
  if s.unit.state = .reset then s
  else if params.length ≠ len then respond tag .badArg [] s
  else if !(permitted s) then respond tag .badState [] s
  else if !(argsOk s) then respond tag .badArg [] s
  else run s

/-- Permitted in every state in which the link answers (R184). -/
def always (_ : State) : Bool := true

/-- The four states in which every state-changing command is BAD_STATE (R184). -/
def State.linkBlocked (s : State) : Bool :=
  s.unit.state = .drainLock || s.unit.state = .closing || s.unit.state = .recovering || s.unit.state = .formatting

/-- A query or table read: OK with results, changing no state (R184). -/
def answerOk (tag : Byte) (results : State → List Byte) (s : State) : State := respond tag .ok (results s) s

/-! ### GET_STATUS (Table 11.5) -/

/-- Slots in state DIRTY. -/
def State.dirtyCount (s : State) : Nat := s.buf.slots.countP fun sl => !sl.draining

/-- Slots in state DRAINING. -/
def State.drainingCount (s : State) : Nat := s.buf.slots.countP Slot.draining

/-- Writes in the wait queue (R57). -/
def State.waitQueueCount (s : State) : Nat := s.host.entries.countP TagEntry.inWaitQueue

/-- PERSISTs in PERSIST_WAITING (R59). -/
def State.persistWaitingCount (s : State) : Nat := s.host.entries.countP fun e => e.standing = .persistWaiting

/-- Waiting media requests of a class. -/
def State.waitingOf (s : State) (c : MediaClass) : Nat := s.media.waiting.countP fun r => r.cls = c

/-- Abort pending of the migration in progress. -/
def State.abortPending (s : State) : Bool := (s.mig.current.map (·.abortPending)).getD false

/-- Bytes 0 to 5 of GET_STATUS: the unit. -/
def statusUnit (s : State) : List Byte :=
  leBytes 1 s.unit.state.code ++ leBytes 1 (optCode SafeOrigin.code s.unit.safeOrigin)
    ++ leBytes 1 (optCode Standing.code s.unit.standing) ++ leBytes 1 (optCode FailCause.code s.unit.failCause)
    ++ [bitsByte [s.map.loaded, s.unit.restartPending, s.map.latch, s.buf.pressure, s.buf.flush.isSome, s.jrn.full,
          s.abortPending, s.unit.holdUp]]
    ++ leBytes 1 (optCode Stage.code s.unit.stage)

/-- Bytes 6 to 18: buffer, host port and media port. -/
def statusPorts (s : State) : List Byte :=
  leBytes 2 s.dirtyCount ++ leBytes 1 s.drainingCount ++ leBytes 1 s.host.entries.length
    ++ leBytes 1 s.waitQueueCount ++ leBytes 1 s.host.persists.length ++ leBytes 1 s.persistWaitingCount
    ++ leBytes 1 s.media.inflight.length ++ leBytes 1 (s.waitingOf .journal) ++ leBytes 1 (s.waitingOf .hostRead)
    ++ leBytes 1 (s.waitingOf .drain) ++ leBytes 1 (s.waitingOf .checkpoint) ++ leBytes 1 (s.waitingOf .copy)

/-- Bytes 19 to 35: migration phase, accept sequence, time, queue. -/
def statusTime (s : State) : List Byte :=
  leBytes 1 (optCode (fun m => m.phase.code) s.mig.current) ++ leBytes 4 s.host.acceptSeq.toNat
    ++ leBytes 4 s.time.tick.toNat ++ leBytes 4 s.time.nextBoundary.toNat ++ leBytes 2 s.time.sweeps
    ++ leBytes 1 s.mig.retireQueue.length ++ leBytes 1 s.mig.backQueue.length

/-- Bytes 36 to 44: the migration in progress (R106). -/
def statusMigration (s : State) : List Byte :=
  let m := s.mig.current
  leBytes 2 (optCode Migration.logical m) ++ leBytes 2 (optCode Migration.source m)
    ++ leBytes 2 (optCode (fun x => x.target.getD 0) m) ++ leBytes 1 (optCode (fun x => x.reason.code) m)
    ++ leBytes 1 (optCode Migration.copyIndex m) ++ leBytes 1 (optCode (fun x => countFlags x.pendingPoison) m)

/-- Bytes 45 to 59: the journal. -/
def statusJournal (s : State) : List Byte :=
  let c := s.jrn.checkpoint
  leBytes 1 s.jrn.staging.length ++ leBytes 1 s.jrn.waiters.length
    ++ leBytes 1 (optCode (fun x => x.phase.code) c) ++ leBytes 2 s.jrn.head ++ leBytes 2 s.jrn.tail
    ++ leBytes 2 s.ringUsed ++ leBytes 2 (optCode Checkpoint.linesWritten c) ++ leBytes 4 s.jrn.nextSeq.toNat

/-- Bytes 60 to 71: the current checkpoint descriptor (R127). -/
def statusDescriptor (s : State) : List Byte :=
  let d := s.jrn.descriptor
  leBytes 1 (optCode (fun x => x.area.code) d) ++ leBytes 1 (optCode (fun x => if x.clean then 2 else 1) d)
    ++ leBytes 4 (optCode (fun x => x.seq.toNat) d) ++ leBytes 4 (optCode (fun x => x.posSeq.toNat) d)
    ++ leBytes 2 (optCode Descriptor.posSlot d)

/-- Bytes 72 to 79: the last migration result (R106). -/
def statusResult (s : State) : List Byte :=
  let r := s.mig.lastResult
  leBytes 1 (optCode (fun x => x.result.code) r) ++ leBytes 1 (optCode (fun x => x.reason.code) r)
    ++ leBytes 2 (optCode LastResult.logical r) ++ leBytes 4 (optCode (fun x => x.tick.toNat) r)

/-- Bytes 80 to 98: the level check record (R117). -/
def statusLevel (s : State) : List Byte :=
  let c := s.mig.levelCheck
  let f := c.bind (·.figures)
  leBytes 1 (optCode (fun x => x.outcome.code) c) ++ leBytes 4 (optCode (fun x => x.tick.toNat) c)
    ++ leBytes 2 (optCode LevelFigures.hottest f) ++ leBytes 2 (optCode LevelFigures.owner f)
    ++ leBytes 4 (optCode LevelFigures.wear f) ++ leBytes 2 (optCode LevelFigures.head f)
    ++ leBytes 4 (optCode LevelFigures.headWear f)

/-- The results of GET_STATUS (Table 11.5, 99 bytes). -/
def statusPayload (s : State) : List Byte :=
  statusUnit s ++ statusPorts s ++ statusTime s ++ statusMigration s ++ statusJournal s ++ statusDescriptor s
    ++ statusResult s ++ statusLevel s

/-! ### GET_HEALTH (Table 11.6) -/

/-- A derived attribute, 0 while the tables are not loaded (R179, R187). -/
def whenLoaded (s : State) (v : Nat) : Nat := if s.map.loaded then v else 0

/-- CheckpointSequence (Table 10.5). -/
def State.checkpointSequence (s : State) : Nat := optCode (fun d => d.seq.toNat) s.jrn.descriptor

/-- The nine counters of Table 10.4 in the order of Table 11.6. -/
def healthCounters (h : HealthMonitor) : List Nat :=
  [h.correctedReads, h.uncorrectableReads, h.programFails, h.drains, h.lostWrites, h.migrationsRetire,
   h.migrationsLevel, h.migrationsManual, h.migrationsAborted]

/-- The results of GET_HEALTH (Table 11.6, 67 bytes). -/
def healthPayload (s : State) : List Byte :=
  let e := s.media.lastError
  [bitsByte [s.map.loaded, s.health.spareLow, s.health.lifeHigh, s.map.latch]]
    ++ leBytes 1 (whenLoaded s s.spareRemainingPct) ++ leBytes 1 (whenLoaded s s.lifeUsedPct)
    ++ leBytes 1 (optCode (fun x => x.event.code) e)
    ++ leBytes 2 (whenLoaded s s.map.pool.length) ++ leBytes 2 (whenLoaded s s.retiredFrames)
    ++ leBytes 4 (whenLoaded s s.poisonedLines) ++ leBytes 4 (whenLoaded s s.map.unclean)
    ++ leBytes 4 (whenLoaded s s.checkpointSequence)
    ++ (healthCounters s.health).flatMap (leBytes 4)
    ++ leBytes 4 (optCode MediaError.physical e) ++ leBytes 1 (optCode (fun x => if x.isWrite then 2 else 1) e)
    ++ leBytes 1 (optCode (fun x => x.cls.code) e) ++ leBytes 1 (optCode MediaError.bits e)
    ++ leBytes 4 (optCode (fun x => x.tick.toNat) e)

/-! ### GET_IDENTITY (Table 11.7) -/

/-- The record whose fields GET_IDENTITY reports: standing IN_USE or MISMATCH (R2, R150). -/
def State.reportedRecord (s : State) : Option GeometryRecord :=
  if s.unit.standing = some .inUse || s.unit.standing = some .mismatch then s.unit.geometry else none

/-- The results of GET_IDENTITY (Table 11.7, 21 bytes). -/
def identityPayload (s : State) : List Byte :=
  let g := s.reportedRecord
  let u := s.geometryInUse
  leBytes 2 0x4816 ++ leBytes 1 (optCode Standing.code s.unit.standing)
    ++ leBytes 1 (s.unit.sizeStraps.toNat + 1) ++ leBytes 1 (0x58 + s.unit.addrStraps.toNat)
    ++ leBytes 1 (if g.isSome then 1 else 0)
    ++ leBytes 2 (optCode GeometryRecord.spares g) ++ leBytes 4 (optCode GeometryRecord.retireWear g)
    ++ leBytes 4 (optCode GeometryRecord.formatCount g) ++ leBytes 1 (optCode (fun x => x.nP / 1024) g)
    ++ leBytes 2 (optCode metaCount u) ++ leBytes 2 (optCode logicalCount u)

/-! ### Table reads (Tables 11.8 and 11.9; Table 11.3) -/

/-- The results of READ_MAP_ENTRY (Table 11.8, 13 bytes). -/
def mapEntryPayload (logical : Nat) (e : MapEntry) : List Byte :=
  leBytes 2 logical ++ leBytes 2 e.frame ++ leBytes 8 e.poison.toNat ++ [bitsByte [e.migrationMark, e.failMark]]

/-- The results of READ_FRAME_RECORD (Table 11.9, 12 bytes). -/
def frameRecordPayload (physical : Nat) (r : FrameRecord) : List Byte :=
  leBytes 2 physical ++ leBytes 1 (roleCode r.role) ++ [bitsByte [r.owner.isSome, r.wanted, r.overdue]]
    ++ leBytes 2 (r.owner.getD 0) ++ leBytes 4 r.wear ++ leBytes 2 r.corrected

/-- The results of READ_POOL_ENTRY (Table 11.3, 8 bytes). -/
def poolEntryPayload (index frame wear : Nat) : List Byte := leBytes 2 index ++ leBytes 2 frame ++ leBytes 4 wear

/-- The results of GET_SETTING (Table 11.3, 9 bytes). -/
def settingPayload (id active staged : Nat) : List Byte := leBytes 1 id ++ leBytes 4 active ++ leBytes 4 staged

/-- The results of READ_EVENTS (Table 11.3, 8 bytes). -/
def eventsPayload (s : State) : List Byte := leBytes 4 s.link.flags.toNat ++ leBytes 4 s.link.enables.toNat

end Sys2Proof.Machine
end

