-- ==== Sys2Proof/Machine/LinkCommands.lean ====
section
/-! DEFINITION. The meanings of the management link's transfers and commands (ch11, Table 11.3, R182 to R186). -/

namespace Sys2Proof.Machine

/-! ### Transfers (R182, R183) -/

/-- RESPONSE_READ (R182): a read transfer of some bytes; the link does not answer its address in RESET. -/
def execResponseRead (bytesRead : Nat) (s : State) : Host.Outcome State Fault Refusal :=
  let t := beginHappening s
  .next (if t.unit.state = .reset then t else readTransfer bytesRead t)

/-- UNKNOWN_COMMAND (R183, check 2). A code of Table 11.3 names a command and comes by its own row (log entry 3). -/
def execUnknownCommand (code tag : Byte) (_params : List Byte) (s : State) : Host.Outcome State Fault Refusal :=
  let t := beginHappening s
  .next (if t.unit.state = .reset || knownCode code then t else respond tag .unknownCommand [] t)

/-- REQUEST_NOT_WELL_FORMED (R182, R183, check 1). A transfer that is well formed comes by another row (log entry 3). -/
def execRequestNotWellFormed (bytes : List Byte) (s : State) : Host.Outcome State Fault Refusal :=
  let t := beginHappening s
  .next (if t.unit.state = .reset || wellFormedTransfer bytes then t else respond (echoedTag bytes) .badCrc [] t)

/-! ### Queries (R184, R187) -/

/-- A query with no parameters: OK with its results in every state in which the link answers. -/
def query (tag : Byte) (params : List Byte) (results : State → List Byte) (s : State) : State :=
  judge tag params 0 always always (answerOk tag results) (beginHappening s)

/-- GET_STATUS (Table 11.5). -/
def execGetStatus (tag : Byte) (params : List Byte) (s : State) : Host.Outcome State Fault Refusal :=
  .next (query tag params statusPayload s)

/-- GET_HEALTH (Table 11.6). -/
def execGetHealth (tag : Byte) (params : List Byte) (s : State) : Host.Outcome State Fault Refusal :=
  .next (query tag params healthPayload s)

/-- GET_IDENTITY (Table 11.7). -/
def execGetIdentity (tag : Byte) (params : List Byte) (s : State) : Host.Outcome State Fault Refusal :=
  .next (query tag params identityPayload s)

/-- GET_SETTING (R174): the active and the staged value of one setting. -/
def execGetSetting (tag : Byte) (params : List Byte) (s : State) : Host.Outcome State Fault Refusal :=
  let id := paramField params 0 1
  .next (judge tag params 1 always (fun t => (t.time.active.get id).isSome)
    (answerOk tag fun t => settingPayload id ((t.time.active.get id).getD 0) ((t.time.staged.get id).getD 0))
    (beginHappening s))

/-! ### Table reads (R7, R10, R13, R184) -/

/-- The tables are loaded (R20). -/
def State.tablesLoaded (s : State) : Bool := s.map.loaded

/-- READ_MAP_ENTRY (R7, Table 11.8). -/
def execReadMapEntry (tag : Byte) (params : List Byte) (s : State) : Host.Outcome State Fault Refusal :=
  let logical := paramField params 0 2
  .next (judge tag params 2 State.tablesLoaded (fun t => (t.entry? logical).isSome)
    (answerOk tag fun t => ((t.entry? logical).map (mapEntryPayload logical)).getD []) (beginHappening s))

/-- READ_FRAME_RECORD (R10, Table 11.9). -/
def execReadFrameRecord (tag : Byte) (params : List Byte) (s : State) : Host.Outcome State Fault Refusal :=
  let physical := paramField params 0 2
  .next (judge tag params 2 State.tablesLoaded (fun t => (t.frame? physical).isSome)
    (answerOk tag fun t => ((t.frame? physical).map (frameRecordPayload physical)).getD []) (beginHappening s))

/-- READ_POOL_ENTRY (R13). -/
def execReadPoolEntry (tag : Byte) (params : List Byte) (s : State) : Host.Outcome State Fault Refusal :=
  let index := paramField params 0 2
  .next (judge tag params 2 State.tablesLoaded (fun t => (t.map.pool[index]?).isSome)
    (answerOk tag fun t =>
      ((t.map.pool[index]?).map fun f => poolEntryPayload index f (wearIn t.map.frames f)).getD [])
    (beginHappening s))

/-! ### Settings (R175, R176) -/

/-- The setting commands are permitted (R175). -/
def State.mayStage (s : State) : Bool := !s.linkBlocked

/-- STAGE_SETTING (R175): the staged value replaced when the setting exists and the value lies in its range. -/
def execStageSetting (tag : Byte) (params : List Byte) (s : State) : Host.Outcome State Fault Refusal :=
  let id := paramField params 0 1
  let v := paramField params 1 4
  .next (judge tag params 5 State.mayStage (fun _ => settingInRange id v)
    (fun t => respond tag .ok [] (t.setTime { t.time with staged := t.time.staged.put id v })) (beginHappening s))

/-- COMMIT_SETTINGS (R176): BAD_ARG on a rejection, OK otherwise. -/
def execCommitSettings (tag : Byte) (params : List Byte) (s : State) : Host.Outcome State Fault Refusal :=
  .next (happening (judge tag params 0 State.mayStage always
    (fun t => respond tag (if t.commitRejected then .badArg else .ok) [] (commitSettingsNow t))) s)

/-- DISCARD_STAGED (R175): every active value copied into the staged set. -/
def execDiscardStaged (tag : Byte) (params : List Byte) (s : State) : Host.Outcome State Fault Refusal :=
  .next (judge tag params 0 State.mayStage always
    (fun t => respond tag .ok [] (t.setTime { t.time with staged := t.time.active })) (beginHappening s))

/-! ### Fences (R17, R18) -/

/-- SET_FENCE with the volatile choice is permitted (R17): ONLINE, WRITE_PROTECTED, or SAFE with the tables loaded. -/
def State.mayFenceVolatile (s : State) : Bool := s.running || (s.unit.state = .safe && s.map.loaded)

/-- A fence value lies from 1 to L (R17). -/
def State.fenceOk (s : State) (v : Nat) : Bool := 1 ≤ v && v ≤ s.windowFrames

/-- The volatile fence is set (R17). -/
def setVolatileFence (tag : Byte) (v : Nat) (s : State) : State :=
  respond tag .ok [] (s.setMap { s.map with volatileFence := some v })

/-- The persistent fence is set and its FENCE_SET handed over, or BUSY while the Map Controller holds one (R18, R122). -/
def setPersistentFence (tag : Byte) (v : Nat) (s : State) : State :=
  if s.creatorWaits .mapController then respond tag .busy [] s
  else
    respond tag .accepted []
      (handOver .mapController (.fenceSet v) (s.setMap { s.map with fence := v, volatileFence := none }))

/-- SET_FENCE (Table 11.3, R17, R18): by its choice byte; any choice but 0 and 1 is judged for state as the volatile
choice is, and is then answered BAD_ARG (log entry 18). -/
def setFence (tag : Byte) (params : List Byte) (s : State) : State :=
  let v := paramField params 0 2
  if persistentChoice params then
    judge tag params 3 State.running (fun t => t.fenceOk v) (setPersistentFence tag v) s
  else
    judge tag params 3 State.mayFenceVolatile (fun t => paramField params 2 1 = 0 && t.fenceOk v)
      (setVolatileFence tag v) s

/-- SET_FENCE with the volatile choice, and with any choice but the persistent one. -/
def execSetFenceVolatile (tag : Byte) (params : List Byte) (s : State) : Host.Outcome State Fault Refusal :=
  .next (happening (setFence tag params) s)

/-- SET_FENCE with the persistent choice. -/
def execSetFencePersistent (tag : Byte) (params : List Byte) (s : State) : Host.Outcome State Fault Refusal :=
  .next (happening (setFence tag params) s)

/-! ### FLUSH, migrations, checkpoints -/

/-- FLUSH is permitted (R41): ONLINE, WRITE_PROTECTED or SAFE. -/
def State.mayFlush (s : State) : Bool := s.running || s.unit.state = .safe

/-- FLUSH (R41): the flush barrier is the accept sequence; a barrier satisfied at once raises FLUSH_DONE in the same
happening (`flushDone?`). -/
def execFlush (tag : Byte) (params : List Byte) (s : State) : Host.Outcome State Fault Refusal :=
  .next (happening (judge tag params 0 State.mayFlush always
    (fun t => respond tag .accepted [] (t.setBuf { t.buf with flush := some t.host.acceptSeq }))) s)

/-- A logical frame is an acceptable argument of REQUEST_MIGRATION (R85): below L, its MAPPED frame not retire-overdue. -/
def State.mayMigrate (s : State) (logical : Nat) : Bool := (s.entry? logical).isSome && !(s.overdueFrame logical)

/-- REQUEST_MIGRATION executed (R85). -/
def requestMigration (tag : Byte) (logical : Nat) (s : State) : State :=
  if s.mig.isQueued logical || s.mig.isMoving logical then respond tag .accepted [] s
  else if s.mig.room then respond tag .accepted [] (joinBack { logical := logical, reason := .manual } s)
  else respond tag .busy [] s

/-- REQUEST_MIGRATION (R85). -/
def execRequestMigration (tag : Byte) (params : List Byte) (s : State) : Host.Outcome State Fault Refusal :=
  let logical := paramField params 0 2
  .next (happening (judge tag params 2 State.running (fun t => t.mayMigrate logical) (requestMigration tag logical)) s)

/-- ABORT_MIGRATION is permitted (R102): ONLINE or WRITE_PROTECTED, the migration in QUIESCE or COPY. -/
def State.mayAbort (s : State) : Bool := s.running && (s.mig.current.map Migration.abortable).getD false

/-- ABORT_MIGRATION (R102, R103): an abort already pending is left as it is. -/
def execAbortMigration (tag : Byte) (params : List Byte) (s : State) : Host.Outcome State Fault Refusal :=
  .next (happening (judge tag params 0 State.mayAbort always
    (fun t => respond tag .accepted [] (if t.abortPending then t else takeAbort t))) s)

/-- CHECKPOINT_NOW (R128): BUSY while a checkpoint is in progress. -/
def execCheckpointNow (tag : Byte) (params : List Byte) (s : State) : Host.Outcome State Fault Refusal :=
  .next (happening (judge tag params 0 State.running always
    (fun t =>
      if t.jrn.checkpoint.isSome then respond tag .busy [] t
      else respond tag .accepted [] (startCheckpoint false t))) s)

/-! ### Changes of unit state (R145, R156, R163, R168) -/

/-- PREPARE_OFF (R163). -/
def execPrepareOff (tag : Byte) (params : List Byte) (s : State) : Host.Outcome State Fault Refusal :=
  .next (happening (judge tag params 0 State.running always
    (fun t => respond tag .accepted [] (enterClosing false t))) s)

/-- RESUME is permitted (R168): SAFE with origin PREPARE_OFF, the warning not asserted. -/
def State.mayResume (s : State) : Bool :=
  s.unit.state = .safe && s.unit.safeOrigin = some .prepareOff && !s.unit.holdUp

/-- RESUME (R168). -/
def execResume (tag : Byte) (params : List Byte) (s : State) : Host.Outcome State Fault Refusal :=
  .next (happening (judge tag params 0 State.mayResume always (fun t => respond tag .ok [] (leaveSafe t))) s)

/-- RESTART is permitted (R156). -/
def State.mayRestart (s : State) : Bool :=
  s.running
    || ((s.unit.state = .safe || s.unit.state = .unformatted || s.unit.state = .failed) && !s.unit.holdUp)

/-- RESTART executed (R156): through CLOSING from ONLINE and WRITE_PROTECTED, at once otherwise. -/
def restartNow (tag : Byte) (s : State) : State :=
  if s.running then respond tag .accepted [] (enterClosing true s) else respond tag .accepted [] (volatileReset s)

/-- RESTART (R156, R157). -/
def execRestart (tag : Byte) (params : List Byte) (s : State) : Host.Outcome State Fault Refusal :=
  .next (happening (judge tag params 0 State.mayRestart always (restartNow tag)) s)

/-- FORMAT executed (R145): BUSY in SAFE while the Media Port holds an operation, FORMATTING otherwise. -/
def formatNow (tag : Byte) (spares retireWear : Nat) (s : State) : State :=
  if s.unit.state = .safe && s.mediaBusy then respond tag .busy [] s
  else respond tag .accepted [] (startFormat spares retireWear s)

/-- FORMAT (R145 to R147). -/
def execFormat (tag : Byte) (params : List Byte) (s : State) : Host.Outcome State Fault Refusal :=
  let spares := paramField params 0 2
  let retireWear := paramField params 2 4
  .next (happening (judge tag params 6 State.mayFormat
    (fun t => formatArgsOk (strapsNP t.unit.sizeStraps) spares retireWear) (formatNow tag spares retireWear)) s)

/-! ### Events (R185, R186) -/

/-- The seventeen bits of a mask of 4 bytes; bits 17 to 31 are ignored (R185, R186). -/
def eventMask (params : List Byte) : BitVec 17 := BitVec.ofNat 17 (paramField params 0 4)

/-- READ_EVENTS (R185). -/
def execReadEvents (tag : Byte) (params : List Byte) (s : State) : Host.Outcome State Fault Refusal :=
  .next (query tag params eventsPayload s)

/-- CLEAR_EVENTS (R185): every flag whose mask bit is set is cleared. -/
def execClearEvents (tag : Byte) (params : List Byte) (s : State) : Host.Outcome State Fault Refusal :=
  .next (judge tag params 4 always always
    (fun t => respond tag .ok [] (t.setLink { t.link with flags := t.link.flags &&& ~~~ (eventMask params) }))
    (beginHappening s))

/-- SET_EVENT_ENABLE (R186): the whole set of enables is replaced. -/
def execSetEventEnable (tag : Byte) (params : List Byte) (s : State) : Host.Outcome State Fault Refusal :=
  .next (judge tag params 4 always always
    (fun t => respond tag .ok [] (t.setLink { t.link with enables := eventMask params })) (beginHappening s))

end Sys2Proof.Machine
end

