-- ==== Sys2Proof/Machine/MediumCommands.lean ====
section
/-! DEFINITION. The meanings of the medium's completions (R63 to R65, R72 to R74): each acts when its identity names an attempt in flight of the operation the row stands for, and has no effect otherwise (log entry 3). -/

namespace Sys2Proof.Machine

/-! ### Whose operation a completion ends -/

/-- The MEDIA READ in flight with this identity, when its requester answers the test. -/
def State.readInFlight? (s : State) (id : AttemptId) (p : Requester → Bool) : Option InFlight :=
  (s.inFlight? id).filter fun op => op.request.kind = .read && p op.request.requester

/-- The MEDIA WRITE in flight with this identity, when its requester answers the test. -/
def State.writeInFlight? (s : State) (id : AttemptId) (p : Requester → Bool) : Option InFlight :=
  (s.inFlight? id).filter fun op => op.request.kind ≠ .read && p op.request.requester

/-- The requester is the Host Port, for some tag. -/
def Requester.isHost : Requester → Bool
  | .host _ => true
  | _ => false

/-- The requester is a drain place. -/
def Requester.isDrain : Requester → Bool
  | .drain _ => true
  | _ => false

/-- The requester is a checkpoint, abandoned or not (R134). -/
def Requester.isCheckpoint : Requester → Bool
  | .checkpoint => true
  | .orphan => true
  | _ => false

/-! ### Host reads and drains -/

/-- A host read's outcome reaches its READ: an uncorrectable one reports RETIRE_ERROR for the frame read (R109), then
the READ is decided (R53). -/
def hostReadOutcome (op : InFlight) (o : ReadOutcome LineData) (s : State) : State :=
  let t := readOutcome op o s
  let u := match o with
    | .uncorrectable => retireCause (frameOf op.request.physical) .retireError t
    | _ => t
  match op.request.requester with
  | .host tag =>
    match u.tagEntry? tag with
    | some e => returnRead tag e.line o u
    | none => u
  | _ => u

/-- HOST_READ_RETURN (R53, R64, R72 to R74, R109). -/
def execHostReadReturn (id : AttemptId) (stored : Stored) (s : State) : Host.Outcome State Fault Refusal :=
  .next (happening (fun t =>
    match t.readInFlight? id Requester.isHost with
    | some op => hostReadOutcome op (decodeStored stored) t
    | none => t) s)

/-- The drain an operation belongs to. -/
def State.drainOf? (s : State) (op : InFlight) : Option Drain :=
  match op.request.requester with
  | .drain p => s.drain? p
  | _ => none

/-- FILL_READ_COMPLETE (R32, R33, R64, R72 to R74). -/
def execFillReadComplete (id : AttemptId) (stored : Stored) (s : State) : Host.Outcome State Fault Refusal :=
  .next (happening (fun t =>
    match t.readInFlight? id Requester.isDrain with
    | some op =>
      let o := decodeStored stored
      let u := readOutcome op o t
      match u.drainOf? op with
      | some d => fillOutcome d o u
      | none => u
    | none => t) s)

/-- DRAIN_WRITE_COMPLETE (R36 to R39, R65, R72 to R74, R101, R107, R110). -/
def execDrainWriteComplete (id : AttemptId) (report : WriteReport) (s : State) : Host.Outcome State Fault Refusal :=
  .next (happening (fun t =>
    match t.writeInFlight? id Requester.isDrain with
    | some op =>
      let u := writeOutcome op report t
      match u.drainOf? op, report with
      | some d, .stored => drainDone d u
      | some d, .programFail => drainFails d u
      | none, _ => u
    | none => t) s)

/-! ### Copies -/

/-- A copy read's outcome reaches the engine: in COPY by R93 and R103, in COMMIT_WAIT as a late copy (R101). -/
def engineRead (o : ReadOutcome LineData) (s : State) : State :=
  match s.mig.current with
  | some m =>
    match m.phase, m.lateCopy with
    | .copy, _ => copyReadOutcome m o s
    | .commitWait, some c => lateReadOutcome m c o s
    | _, _ => s
  | none => s

/-- A copy write's outcome reaches the engine: in COPY by R92, R94 and R103, in COMMIT_WAIT as a late copy (R101). -/
def engineWrite (report : WriteReport) (s : State) : State :=
  match s.mig.current with
  | some m =>
    match m.phase, m.lateCopy, report with
    | .copy, _, _ => copyWriteOutcome m report s
    | .commitWait, some c, .stored => lateWriteDone c s
    | .commitWait, some c, .programFail => lateWriteFail m c s
    | _, _, _ => s
  | none => s

/-- COPY_READ_COMPLETE (R93, R101, R103, R64, R72 to R74). Under a pending abort the retire cause of a CORRECTED read reaches
the engine before the abort completes (DESIGN CHOICE, log entry 43), that of an UNCORRECTABLE one after (R103). -/
def execCopyReadComplete (id : AttemptId) (stored : Stored) (s : State) : Host.Outcome State Fault Refusal :=
  .next (happening (fun t =>
    match t.readInFlight? id (· = .engine) with
    | some op =>
      let o := decodeStored stored
      engineRead o (readOutcome op o t)
    | none => t) s)

/-- COPY_WRITE_COMPLETE (R92, R94, R98, R101, R103, R65, R72 to R74). -/
def execCopyWriteComplete (id : AttemptId) (report : WriteReport) (s : State) : Host.Outcome State Fault Refusal :=
  .next (happening (fun t =>
    match t.writeInFlight? id (· = .engine) with
    | some op => engineWrite report (writeOutcome op report t)
    | none => t) s)

/-! ### Journal and checkpoint writes -/

/-- RECORD_WRITE_COMPLETE (R124, R125, Table 7.2, R65, R72 to R74). -/
def execRecordWriteComplete (id : AttemptId) (report : WriteReport) (s : State) : Host.Outcome State Fault Refusal :=
  .next (happening (fun t =>
    match t.writeInFlight? id (· = .journal) with
    | some op => recordOutcome report (writeOutcome op report t)
    | none => t) s)

/-- CHECKPOINT_LINE_COMPLETE (R131 to R134, R65, R72 to R74): a write of abandoned work changes nothing of the Journal
Controller. -/
def execCheckpointLineComplete (id : AttemptId) (report : WriteReport) (s : State) :
    Host.Outcome State Fault Refusal :=
  .next (happening (fun t =>
    match t.writeInFlight? id Requester.isCheckpoint with
    | some op =>
      let u := writeOutcome op report t
      if op.request.requester = .checkpoint then checkpointOutcome report u else u
    | none => t) s)

/-! ### Unit Control's operations -/

/-- The read of FORMAT's step 1 has an outcome (R147). -/
def formatReadArrives (id : AttemptId) (stored : Stored) (t : State) : State :=
  match t.readInFlight? id (· = .unitControl), t.unit.format with
  | some op, some w =>
    let o := decodeStored stored
    formatReadOutcome w o.metaLine (readOutcome op o t)
  | _, _ => t

/-- A write of FORMAT has an outcome (R147 to R149). -/
def formatWriteArrives (id : AttemptId) (report : WriteReport) (t : State) : State :=
  match t.writeInFlight? id (· = .unitControl), t.unit.format with
  | some op, some w => formatWriteOutcome w report (writeOutcome op report t)
  | _, _ => t

/-- FORMAT_OPERATION_COMPLETE (R147 to R149, R64, R65, R72 to R74). -/
def execFormatOperationComplete (id : AttemptId) (completion : FormatCompletion) (s : State) :
    Host.Outcome State Fault Refusal :=
  .next (happening
    (match completion with
      | .read stored => formatReadArrives id stored
      | .write report => formatWriteArrives id report) s)

/-- RECOVERY_READ_COMPLETE (R135 to R139, R150 to R154, R64, R72 to R74). -/
def execRecoveryReadComplete (id : AttemptId) (stored : Stored) (s : State) : Host.Outcome State Fault Refusal :=
  .next (happening (fun t =>
    match t.readInFlight? id (· = .unitControl), t.unit.recovery with
    | some op, some w =>
      let o := decodeStored stored
      recoveryOutcome w o.metaLine (readOutcome op o t)
    | _, _ => t) s)

/-- STALE_COMPLETION_DISCARD (R63): a completion whose identity names no attempt in flight is discarded, with no effect.
One whose identity names an attempt in flight is not stale and comes by its own row (log entry 3). -/
def execStaleCompletionDiscard (_id : AttemptId) (s : State) : Host.Outcome State Fault Refusal :=
  .next (beginHappening s)

end Sys2Proof.Machine
end

