-- ==== Sys2Proof/Machine/PinCommands.lean ====
section
/-! DEFINITION. The meanings of the pin commands (reset input, hold-up warning) and of the time-driven commands (ch8 R144; ch9 R158, R159, R162, R167; ch10 R170 to R172; ch4 R75 to R77; ch2 R26, R28). -/

namespace Sys2Proof.Machine

/-- The reset input is asserted (R144, R80): hard reset; no effect while it is asserted already. -/
def assertReset (s : State) : State := if s.unit.state = .reset then s else hardReset s

/-- The reset input is released (R144): straps sampled, the counter starts from 0, the first boundary at the default
SweepPeriod (R171), RECOVERING. -/
def releaseReset (sizeStraps : BitVec 6) (addrStraps : BitVec 2) (s : State) : State :=
  if s.unit.state = .reset then
    let t := s.setUnit { s.unit with sizeStraps := sizeStraps, addrStraps := addrStraps }
    startRecovery (t.setTime { t.time with
      tick := 0#32, nextBoundary := BitVec.ofNat 32 Settings.defaults.sweepPeriod })
  else s

/-- What an assertion of the warning does in each unit state (Table 9.1). -/
def warningAsserted (s : State) : State :=
  match s.unit.state with
  | .online => enterDrainLock s
  | .writeProtected => enterDrainLock s
  | .closing => enterDrainLock s
  | .recovering => abandonToSafe s
  | .formatting => abandonToSafe s
  | .reset => s
  | .drainLock => s
  | .safe => s
  | .unformatted => s
  | .failed => s

/-- The warning is asserted (R158): the level is taken, and Table 9.1 applies; no effect while it is asserted already. -/
def assertHoldUp (s : State) : State :=
  if s.unit.holdUp then s else warningAsserted (s.setUnit { s.unit with holdUp := true })

/-- The warning is deasserted (R158): SAFE with origin DRAIN_LOCK is left (R167); nothing else changes but the level. -/
def deassertHoldUp (s : State) : State :=
  if s.unit.holdUp then
    let t := s.setUnit { s.unit with holdUp := false }
    if t.unit.state = .safe && t.unit.safeOrigin = some .drainLock then leaveSafeDrainLock t else t
  else s

/-- RESET_ASSERT. -/
def execResetAssert (s : State) : Host.Outcome State Fault Refusal := .next (happening assertReset s)

/-- RESET_RELEASE. -/
def execResetRelease (sizeStraps : BitVec 6) (addrStraps : BitVec 2) (s : State) : Host.Outcome State Fault Refusal :=
  .next (happening (releaseReset sizeStraps addrStraps) s)

/-- HOLD_UP_ASSERT. -/
def execHoldUpAssert (s : State) : Host.Outcome State Fault Refusal := .next (happening assertHoldUp s)

/-- HOLD_UP_DEASSERT. -/
def execHoldUpDeassert (s : State) : Host.Outcome State Fault Refusal := .next (happening deassertHoldUp s)

/-- SWEEP_BOUNDARY (R171, R172): the boundary's work, where the counter has reached the held value. -/
def execSweepBoundary (s : State) : Host.Outcome State Fault Refusal :=
  .next (happening (fun t => if t.boundaryFalls then boundaryWork t else t) s)

/-- DRAIN_AGE_REACHED (R28): a slot whose age has reached DrainAge is due from this happening; the scheduler issues its
drain when it is eligible and its turn comes (R29). The judgement of age is made where slots are judged. -/
def execDrainAgeReached (_line : Nat) (s : State) : Host.Outcome State Fault Refusal := .next (happening id s)

/-- STAMP_AGE_CLAMP (R26): the stamp, or the re-dirty mark's tick, that stands 2^30 ticks behind is advanced by one tick. -/
def execStampAgeClamp (line : Nat) (s : State) : Host.Outcome State Fault Refusal :=
  .next (happening (fun t => updSlot line (clampSlot t.time.tick) t) s)

/-- ATTEMPT_TIMEOUT (R75 to R77): the attempt in the place, if its deadline is reached. -/
def execAttemptTimeout (place : Fin 8) (s : State) : Host.Outcome State Fault Refusal :=
  .next (happening (fun t =>
    match t.overdueAttempt? place with
    | some op => attemptTimesOut op t
    | none => t) s)

end Sys2Proof.Machine
end

