-- ==== Sys2Proof/Machine/Dispatch.lean ====
section
/-! DEFINITION. The meaning of every command: one arm per constructor of Instr, one call per arm. -/

namespace Sys2Proof.Machine

/-- The effect of a command on everything but the queue of waiting commands. -/
def exec (i : Instr) (s : State) : Host.Outcome State Fault Refusal :=
  match i with
  | .resetAssert => Sys2Proof.Machine.execResetAssert s
  | .resetRelease sizeStraps addrStraps => Sys2Proof.Machine.execResetRelease sizeStraps addrStraps s
  | .holdUpAssert => Sys2Proof.Machine.execHoldUpAssert s
  | .holdUpDeassert => Sys2Proof.Machine.execHoldUpDeassert s
  | .sweepBoundary => Sys2Proof.Machine.execSweepBoundary s
  | .drainAgeReached line => Sys2Proof.Machine.execDrainAgeReached line s
  | .stampAgeClamp line => Sys2Proof.Machine.execStampAgeClamp line s
  | .hostRead tag line => Sys2Proof.Machine.execHostRead tag line s
  | .hostWrite tag line mask data => Sys2Proof.Machine.execHostWrite tag line mask data s
  | .hostPersist tag line => Sys2Proof.Machine.execHostPersist tag line s
  | .hostUnknownKind tag line => Sys2Proof.Machine.execHostUnknownKind tag line s
  | .waitQueueTake => Sys2Proof.Machine.execWaitQueueTake s
  | .persistTake => Sys2Proof.Machine.execPersistTake s
  | .persistDone => Sys2Proof.Machine.execPersistDone s
  | .flushDone => Sys2Proof.Machine.execFlushDone s
  | .drainIssue => Sys2Proof.Machine.execDrainIssue s
  | .mediaGrant => Sys2Proof.Machine.execMediaGrant s
  | .attemptTimeout place => Sys2Proof.Machine.execAttemptTimeout place s
  | .staleCompletionDiscard id => Sys2Proof.Machine.execStaleCompletionDiscard id s
  | .hostReadReturn id stored => Sys2Proof.Machine.execHostReadReturn id stored s
  | .fillReadComplete id stored => Sys2Proof.Machine.execFillReadComplete id stored s
  | .drainWriteComplete id report => Sys2Proof.Machine.execDrainWriteComplete id report s
  | .copyReadComplete id stored => Sys2Proof.Machine.execCopyReadComplete id stored s
  | .copyWriteComplete id report => Sys2Proof.Machine.execCopyWriteComplete id report s
  | .recordWriteComplete id report => Sys2Proof.Machine.execRecordWriteComplete id report s
  | .checkpointLineComplete id report => Sys2Proof.Machine.execCheckpointLineComplete id report s
  | .formatOperationComplete id completion => Sys2Proof.Machine.execFormatOperationComplete id completion s
  | .recoveryReadComplete id stored => Sys2Proof.Machine.execRecoveryReadComplete id stored s
  | .migrationTake => Sys2Proof.Machine.execMigrationTake s
  | .quiesceEnd => Sys2Proof.Machine.execQuiesceEnd s
  | .migrationSwitch => Sys2Proof.Machine.execMigrationSwitch s
  | .lateCopyStart => Sys2Proof.Machine.execLateCopyStart s
  | .abortComplete => Sys2Proof.Machine.execAbortComplete s
  | .recordWriteIssue => Sys2Proof.Machine.execRecordWriteIssue s
  | .creatorJoinQueue => Sys2Proof.Machine.execCreatorJoinQueue s
  | .checkpointImageFix => Sys2Proof.Machine.execCheckpointImageFix s
  | .drainLockEmptyingEnd => Sys2Proof.Machine.execDrainLockEmptyingEnd s
  | .closingEmptyingEnd => Sys2Proof.Machine.execClosingEmptyingEnd s
  | .closingCheckpointStart => Sys2Proof.Machine.execClosingCheckpointStart s
  | .responseRead bytesRead => Sys2Proof.Machine.execResponseRead bytesRead s
  | .unknownCommand code tag params => Sys2Proof.Machine.execUnknownCommand code tag params s
  | .getStatus tag params => Sys2Proof.Machine.execGetStatus tag params s
  | .getHealth tag params => Sys2Proof.Machine.execGetHealth tag params s
  | .getIdentity tag params => Sys2Proof.Machine.execGetIdentity tag params s
  | .readMapEntry tag params => Sys2Proof.Machine.execReadMapEntry tag params s
  | .readFrameRecord tag params => Sys2Proof.Machine.execReadFrameRecord tag params s
  | .readPoolEntry tag params => Sys2Proof.Machine.execReadPoolEntry tag params s
  | .getSetting tag params => Sys2Proof.Machine.execGetSetting tag params s
  | .stageSetting tag params => Sys2Proof.Machine.execStageSetting tag params s
  | .commitSettings tag params => Sys2Proof.Machine.execCommitSettings tag params s
  | .discardStaged tag params => Sys2Proof.Machine.execDiscardStaged tag params s
  | .setFenceVolatile tag params => Sys2Proof.Machine.execSetFenceVolatile tag params s
  | .setFencePersistent tag params => Sys2Proof.Machine.execSetFencePersistent tag params s
  | .flush tag params => Sys2Proof.Machine.execFlush tag params s
  | .requestMigration tag params => Sys2Proof.Machine.execRequestMigration tag params s
  | .abortMigration tag params => Sys2Proof.Machine.execAbortMigration tag params s
  | .checkpointNow tag params => Sys2Proof.Machine.execCheckpointNow tag params s
  | .prepareOff tag params => Sys2Proof.Machine.execPrepareOff tag params s
  | .resume tag params => Sys2Proof.Machine.execResume tag params s
  | .restart tag params => Sys2Proof.Machine.execRestart tag params s
  | .format tag params => Sys2Proof.Machine.execFormat tag params s
  | .readEvents tag params => Sys2Proof.Machine.execReadEvents tag params s
  | .clearEvents tag params => Sys2Proof.Machine.execClearEvents tag params s
  | .setEventEnable tag params => Sys2Proof.Machine.execSetEventEnable tag params s
  | .requestNotWellFormed bytes => Sys2Proof.Machine.execRequestNotWellFormed bytes s

end Sys2Proof.Machine
end

