-- ==== Sys2Proof/Machine/Step.lean ====
section
/-! DEFINITION. One step: the command at the front of the queue, or one tick when none waits; and the host's placing of a table word in front. -/

namespace Sys2Proof.Machine

/-- One step. With a command waiting, its meaning is run on the state with the rest of the queue; with none, time
passes by one tick (DESIGN CHOICE, log entry 2), and in RESET, where the counter stands, the part idles. -/
def step (s : State) : Host.Outcome State Fault Refusal :=
  match s.pending with
  | i :: rest => exec i (s.setPending rest)
  | [] => .next (tick s)

/-- s with the command a table word spells put in front of its queue; s unchanged where the word spells none, which is
every word, because the table gives no row any bits (log entry 24). -/
def State.withFetchWord (s : State) (nbits w : Nat) : State :=
  match Sys2Proof.decodeTableWord nbits w with
  | some i => s.setPending (i :: s.pending)
  | none => s

end Sys2Proof.Machine
end

