-- ==== Sys2Proof/Safety.lean ====
section
/-! DEFINITION. What the statements are said in: the invariants of the part's tables, its map and its unit state, which commands may change the unit state, and the link's refusals. -/

namespace Sys2Proof.Machine

/-! ### Bounds of the tables (Tables 0.5, 10.2, 10.4; R21, R27, R45, R59, R67, R68, R70, R82, R121, R173, R178) -/

/-- No table of the part holds more than its places, and no place is taken twice. -/
structure State.Bounded (s : State) : Prop where
  slots : s.buf.slots.length ≤ Config.slotCount
  slotLines : (s.buf.slots.map (·.line)).Nodup
  drainPlaces : (s.buf.drains.map (·.place)).Nodup
  tags : (s.host.entries.map (·.tag)).Nodup
  persists : s.host.persists.length ≤ Config.persistPlaces
  migrations : s.mig.queued ≤ Config.migrationQueue
  staging : s.jrn.staging.length ≤ Config.stagingPlaces
  mediaPlaces : (s.media.inflight.map (·.id.place)).Nodup
  promoCheckpoint : s.media.promoCheckpoint ≤ Config.promotionLimit
  promoCopy : s.media.promoCopy ≤ Config.promotionLimit
  sweeps : s.time.sweeps ≤ max16

/-- No two operations in flight are to one physical line (R68). -/
def State.OneOperationPerLine (s : State) : Prop := (s.media.inflight.map (·.request.physical)).Nodup

/-- Every health counter is a 32-bit count (Table 10.4). -/
def HealthMonitor.bounded (h : HealthMonitor) : Bool := (healthCounters h).all fun n => n ≤ max32

/-! ### Settings (R174 to R176) -/

/-- Each of the ten values lies in its range of Table 10.2. -/
def Settings.inRange (x : Settings) : Bool := (List.range' 1 10).all fun id => settingInRange id ((x.get id).getD 0)

/-- Both sets hold values in range, and the active watermarks stand in order. -/
structure State.SettingsSound (s : State) : Prop where
  active : s.time.active.inRange = true
  staged : s.time.staged.inRange = true
  watermarks : s.time.active.lowWater < s.time.active.highWater

/-! ### Unit Control (R141, R150, R156, R159, R164, R169) -/

/-- Each item of Unit Control is present in exactly the unit states it belongs to. -/
structure State.UnitSound (s : State) : Prop where
  safeOrigin : s.unit.safeOrigin.isSome ↔ s.unit.state = .safe
  failCause : s.unit.failCause.isSome ↔ s.unit.state = .failed
  stage : s.unit.stage.isSome ↔ s.unit.state = .drainLock ∨ s.unit.state = .closing
  drainLockStage : s.unit.state = .drainLock → s.unit.stage ≠ some .checkpoint
  restartPending : s.unit.restartPending = true → s.unit.state = .closing
  format : s.unit.format.isSome ↔ s.unit.state = .formatting
  recovery : s.unit.recovery.isSome ↔ s.unit.state = .recovering
  geometry : s.unit.geometry.isSome ↔ s.unit.standing = some .inUse ∨ s.unit.standing = some .mismatch
  resetStanding : s.unit.state = .reset → s.unit.standing = none

/-- A unit whose latch is set is not ONLINE (R19, R142). -/
def State.LatchSound (s : State) : Prop := s.map.latch = true → s.unit.state ≠ .online

/-- In RESET and FAILED the Media Port holds nothing (R63, R78). -/
def State.StoppedSound (s : State) : Prop :=
  s.unit.state = .reset ∨ s.unit.state = .failed →
    s.media.waiting = [] ∧ s.media.arriving = [] ∧ s.media.inflight = []

/-! ### The map, the frame table and the pool (R5, R7, R13, R14, R20) -/

/-- Entries and frame records are paired one-to-one: each entry names a MAPPED frame that its own logical frame owns, and
the owner of each MAPPED frame is the logical frame whose entry names it (R7). -/
structure Paired (entries : List MapEntry) (frames : List FrameRecord) : Prop where
  entry : ∀ (l : Nat) (e : MapEntry), entries[l]? = some e → ∃ r, frames[e.frame]? = some r ∧ r.role = .mapped ∧ r.owner = some l
  owner : ∀ (f : Nat) (r : FrameRecord), frames[f]? = some r → r.role = .mapped →
    ∃ (l : Nat) (e : MapEntry), r.owner = some l ∧ entries[l]? = some e ∧ e.frame = f

/-- What a migration in progress holds of the tables: its entry names its source, and its target, where it has one, is a
TARGET frame of its logical frame (R14); it has none in QUIESCE, and one in COPY, but under an abort, and in COMMIT_WAIT. -/
structure State.MigrationHolds (s : State) (m : Migration) : Prop where
  source : ∃ e, s.entry? m.logical = some e ∧ e.frame = m.source
  target : ∀ f, m.target = some f → ∃ r, s.frame? f = some r ∧ r.role = .target ∧ r.owner = some m.logical
  quiesce : m.phase = .quiesce → m.target = none
  copy : m.phase = .copy → m.abortPending = false → m.target ≠ none
  commitWait : m.phase = .commitWait → m.target ≠ none

/-- The tables of the Map Controller agree with one another, with the migration in progress, with the queue and with the
unit state; those that replay works on are paired too. -/
structure State.MapSound (s : State) : Prop where
  unloaded : s.map.loaded = false → s.map.entries = [] ∧ s.map.frames = [] ∧ s.map.pool = []
  loadedIn : s.map.loaded = true → s.unit.state ∈ [.online, .writeProtected, .closing, .drainLock, .safe, .failed]
  rebuilding : s.unit.format.isSome ∨ s.unit.recovery.isSome → s.map.loaded = false
  paired : Paired s.map.entries s.map.frames
  poolOnce : s.map.pool.Nodup
  pool : ∀ f, f ∈ s.map.pool ↔ ∃ r, s.frame? f = some r ∧ r.role = .spare
  target : ∀ f r, s.frame? f = some r → r.role = .target → ∃ m, s.mig.current = some m ∧ m.target = some f
  moving : ∀ m, s.mig.current = some m → s.MigrationHolds m
  queued : ∀ q ∈ s.mig.retireQueue ++ s.mig.backQueue, q.logical < s.map.entries.length
  replay : ∀ w x, s.unit.recovery = some w → w.step = .replay x →
    Paired x.tables.entries x.tables.frames ∧ ∀ r ∈ x.tables.frames, r.role ≠ .target

/-- The pool stands in the order of R13: ascending wear, then frame number. -/
def State.PoolOrdered (s : State) : Prop :=
  s.map.pool.Pairwise fun a b =>
    wearIn s.map.frames a < wearIn s.map.frames b ∨ (wearIn s.map.frames a = wearIn s.map.frames b ∧ a < b)

/-- The command is the completion of a MEDIA WRITE of a line of this frame. -/
def writesFrame (c : Instr) (s : State) (frame : Nat) : Prop :=
  ∃ op ∈ s.media.inflight, op.request.kind ≠ .read ∧ frameOf op.request.physical = frame ∧
    (match c with
      | .drainWriteComplete id _ => id = op.id
      | .copyWriteComplete id _ => id = op.id
      | .recordWriteComplete id _ => id = op.id
      | .checkpointLineComplete id _ => id = op.id
      | .formatOperationComplete id _ => id = op.id
      | _ => False)

/-- The transitions of Table 8.2 and of chapter 9, in one happening (R141): from a state to another by a command. Two
transitions that one happening makes in a row are one line: reset released under the warning, SAFE entered and left,
ONLINE entered and the latch set there (R142). -/
def mayPass (c : Instr) (a b : UnitState) : Bool :=
  match a, b with
  | _, .reset => c = .resetAssert
  | .reset, .recovering => match c with | .resetRelease _ _ => true | _ => false
  | .reset, .safe => match c with | .resetRelease _ _ => true | _ => false
  | .recovering, .unformatted => match c with | .recoveryReadComplete _ _ => true | _ => false
  | .recovering, .online => match c with | .recoveryReadComplete _ _ => true | _ => false
  | .recovering, .writeProtected => match c with | .recoveryReadComplete _ _ => true | _ => false
  | .recovering, .safe => c = .holdUpAssert
  | .recovering, .failed => match c with | .recoveryReadComplete _ _ => true | .attemptTimeout _ => true | _ => false
  | .formatting, .online => match c with | .formatOperationComplete _ _ => true | _ => false
  | .formatting, .writeProtected => match c with | .formatOperationComplete _ _ => true | _ => false
  | .formatting, .safe => c = .holdUpAssert
  | .formatting, .failed => match c with | .formatOperationComplete _ _ => true | .attemptTimeout _ => true | _ => false
  | .online, .drainLock => c = .holdUpAssert
  | .writeProtected, .drainLock => c = .holdUpAssert
  | .closing, .drainLock => c = .holdUpAssert
  | .online, .closing => match c with | .prepareOff _ _ => true | .restart _ _ => true | _ => false
  | .writeProtected, .closing => match c with | .prepareOff _ _ => true | .restart _ _ => true | _ => false
  | .online, .writeProtected => true
  | .closing, .safe =>
    match c with | .recordWriteComplete _ _ => true | .checkpointLineComplete _ _ => true | _ => false
  | .closing, .recovering =>
    match c with | .recordWriteComplete _ _ => true | .checkpointLineComplete _ _ => true | _ => false
  | .drainLock, .safe => match c with | .recordWriteComplete _ _ => true | _ => false
  | .drainLock, .online => match c with | .recordWriteComplete _ _ => true | _ => false
  | .drainLock, .writeProtected => match c with | .recordWriteComplete _ _ => true | _ => false
  | .drainLock, .recovering => match c with | .recordWriteComplete _ _ => true | _ => false
  | .safe, .online => match c with | .resume _ _ => true | .holdUpDeassert => true | _ => false
  | .safe, .writeProtected => match c with | .resume _ _ => true | .holdUpDeassert => true | _ => false
  | .safe, .recovering => match c with | .restart _ _ => true | .holdUpDeassert => true | _ => false
  | .safe, .formatting => match c with | .format _ _ => true | _ => false
  | .unformatted, .recovering => match c with | .restart _ _ => true | _ => false
  | .unformatted, .formatting => match c with | .format _ _ => true | _ => false
  | .failed, .recovering => match c with | .restart _ _ => true | _ => false
  | .failed, .formatting => match c with | .format _ _ => true | _ => false
  | .reset, _ => false
  | .failed, _ => false
  | _, .failed => match c with | .attemptTimeout _ => true | _ => false
  | _, _ => false

/-- A hard or volatile reset by this command (R144, R156, R157): the assertion of reset, RESTART at once, or the completion
that ends CLOSING with restart pending. A volatile reset enters RECOVERING, or passes to SAFE under the warning (R162). -/
def ResetBy (c : Instr) (s t : State) : Prop :=
  (c = .resetAssert ∧ s.unit.state ≠ .reset ∧ t.unit.state = .reset) ∨
  ((∃ tag params, c = .restart tag params) ∧ s.unit.state ∈ [.safe, .unformatted, .failed] ∧
    t.unit.state = .recovering) ∨
  ((∃ id report, c = .recordWriteComplete id report ∨ c = .checkpointLineComplete id report) ∧
    s.unit.state = .closing ∧ s.unit.restartPending = true ∧
    (t.unit.state = .recovering ∨ (s.unit.holdUp = true ∧ t.unit.state = .safe)))

/-! ### Host requests (R46, R47, R50) -/

/-- The unit serves host requests: ONLINE, WRITE_PROTECTED, CLOSING, DRAIN_LOCK, and SAFE with the tables loaded (Table 3.3). -/
def State.serves (s : State) : Prop :=
  s.unit.state ∈ [.online, .writeProtected, .closing, .drainLock] ∨ (s.unit.state = .safe ∧ s.map.loaded = true)

/-- A request with this tag for this line passes the checks before its kind is looked at: it is served, its tag is
free and its frame lies below the active fence. -/
structure State.Passes (s : State) (tag : BitVec 5) (line : Nat) : Prop where
  serves : s.serves
  free : s.occupied tag = false
  visible : line / 64 < s.activeFence

/-- No held answer is free to be sent: each waits behind a READ of its line in service (R50). -/
def State.HeldAnswersWait (s : State) : Prop := releasableIn [] s.host.entries = []

/-- The outputs of a happening in which one host response leaves. -/
def oneResponse (tag : BitVec 5) (code : HostCode) (data : LineData) : Outputs :=
  { Outputs.none with host := [{ tag := tag, code := code, data := data }] }

/-! ### Media outcomes (R63, R67, R72 to R74) -/

/-- The Media Port with the place of an operation freed (R67). -/
def State.freed (s : State) (op : InFlight) : MediaPort :=
  { s.media with inflight := s.media.inflight.filter fun o => o.id ≠ op.id }

/-- The Map Controller with a frame's wear raised by 1 (R11, R72). -/
def State.worn (s : State) (frame : Nat) : MapController :=
  { s.map with frames := s.map.frames.modify frame fun r => { r with wear := satRaise max32 r.wear } }

/-- The media error record of an event of an operation, at the tick (R74). -/
def State.errorRecord (s : State) (op : InFlight) (event : MediaEvent) (bits : Nat) : Option MediaError :=
  some
    { physical := op.request.physical, isWrite := decide (op.request.kind ≠ .read), cls := op.request.cls,
      event := event, bits := bits, tick := s.time.tick }

/-- The operation in flight is this one, a MEDIA READ of a requester. -/
structure State.Reading (s : State) (op : InFlight) (requester : Requester) : Prop where
  found : s.inFlight? op.id = some op
  kind : op.request.kind = .read
  requester : op.request.requester = requester

/-- The operation in flight is this one, a MEDIA WRITE of a requester. -/
structure State.Writing (s : State) (op : InFlight) (requester : Requester) : Prop where
  found : s.inFlight? op.id = some op
  kind : op.request.kind ≠ .read
  requester : op.request.requester = requester

/-- What a MEDIA READ delivers and leaves where no frame table is loaded, as in RECOVERING and FORMATTING (R64, R72 to
R74): a line read CLEAN, one read CORRECTED, which is counted and recorded, or, UNCORRECTABLE, none. -/
def State.ReadLeaves (s : State) (op : InFlight) (stored : Stored) (delivered : Option LineData) (health : HealthMonitor)
    (media : MediaPort) : Prop :=
  (∃ data, delivered = some data ∧ errorsFrom data stored = 0 ∧ health = s.health ∧ media = s.freed op) ∨
  (∃ data, delivered = some data ∧ 1 ≤ errorsFrom data stored ∧ errorsFrom data stored ≤ 4 ∧ s.map.frames = [] ∧
    health = { s.health with correctedReads := satRaise max32 s.health.correctedReads } ∧
    media = { s.freed op with lastError := s.errorRecord op .corrected (errorsFrom data stored) }) ∨
  (delivered = none ∧ (∀ data, 4 < errorsFrom data stored) ∧
    health = { s.health with uncorrectableReads := satRaise max32 s.health.uncorrectableReads } ∧
    media = { s.freed op with lastError := s.errorRecord op .uncorrectable 0 })

/-- A frame whose wear, raised by one more write, stays below RetireWear, or which is not MAPPED: the write is no
retire cause (R107). -/
def State.NotWornOut (s : State) (frame : Nat) : Prop :=
  ∀ r, s.frame? frame = some r → r.role = .mapped → satRaise max32 r.wear < s.retireWear

/-! ### The management link (Table 11.3) -/

/-- The parameter length Table 11.3 gives for a link command. -/
def paramLength : Instr → Option Nat
  | .getStatus _ _ => some 0
  | .getHealth _ _ => some 0
  | .getIdentity _ _ => some 0
  | .readMapEntry _ _ => some 2
  | .readFrameRecord _ _ => some 2
  | .readPoolEntry _ _ => some 2
  | .getSetting _ _ => some 1
  | .stageSetting _ _ => some 5
  | .commitSettings _ _ => some 0
  | .discardStaged _ _ => some 0
  | .setFenceVolatile _ _ => some 3
  | .setFencePersistent _ _ => some 3
  | .flush _ _ => some 0
  | .requestMigration _ _ => some 2
  | .abortMigration _ _ => some 0
  | .checkpointNow _ _ => some 0
  | .prepareOff _ _ => some 0
  | .resume _ _ => some 0
  | .restart _ _ => some 0
  | .format _ _ => some 6
  | .readEvents _ _ => some 0
  | .clearEvents _ _ => some 4
  | .setEventEnable _ _ => some 4
  | _ => none

/-- The command is a state-changing one (R184): every link command but the queries, the table reads and the event commands. -/
def stateChanging : Instr → Bool
  | .stageSetting _ _ => true
  | .commitSettings _ _ => true
  | .discardStaged _ _ => true
  | .setFenceVolatile _ _ => true
  | .setFencePersistent _ _ => true
  | .flush _ _ => true
  | .requestMigration _ _ => true
  | .abortMigration _ _ => true
  | .checkpointNow _ _ => true
  | .prepareOff _ _ => true
  | .resume _ _ => true
  | .restart _ _ => true
  | .format _ _ => true
  | _ => false

/-- The state in which nothing is changed but the pending response: what a request that is not executed leaves (R183). -/
def State.withResponse (s : State) (tag : Byte) (status : Status) (results : List Byte) : State :=
  { s with
    out := Outputs.none
    link := { s.link with response := some { status := status, tag := tag, results := results } } }

/-! ### Payload fields (Tables 11.5 to 11.7, 11.11): first byte, length in bytes, value -/

/-- The code of an item of a table that numbers its values from 1 in this order; 0 when the item is absent (R187). -/
def codeIn {α : Type} [DecidableEq α] (values : List α) : Option α → Nat
  | none => 0
  | some x => values.idxOf x + 1

/-- Flags as a number, flag 0 in bit 0. -/
def flagsValue : List Bool → Nat
  | [] => 0
  | b :: rest => b.toNat + 2 * flagsValue rest

/-- The unit states in the order of their codes, from 0 (Table 11.11). -/
def unitStates : List UnitState :=
  [.reset, .unformatted, .formatting, .recovering, .online, .writeProtected, .closing, .drainLock, .safe, .failed]

/-- The migration reasons in the order of their codes (Table 11.11). -/
def reasons : List Reason := [.retireWear, .retireError, .retireProgram, .level, .manual]

/-- The request classes in the order of their codes (Table 11.6). -/
def mediaClasses : List MediaClass := [.journal, .hostRead, .drain, .checkpoint, .copy]

/-- Waiting media requests of a class. -/
def State.requestsOf (s : State) (c : MediaClass) : Nat := (s.media.waiting.filter fun r => r.cls = c).length

/-- Bytes 0 to 35 of GET_STATUS (Table 11.5). -/
def statusFieldsUnit (s : State) : List (Nat × Nat × Nat) :=
  let m := s.mig.current
  [(0, 1, unitStates.idxOf s.unit.state),
   (1, 1, codeIn [SafeOrigin.drainLock, .prepareOff] s.unit.safeOrigin),
   (2, 1, codeIn [Standing.inUse, .invalid, .mismatch] s.unit.standing),
   (3, 1, codeIn [FailCause.secondTimeout, .noCheckpoint, .imageInconsistent, .formatProgramFail] s.unit.failCause),
   (4, 1, flagsValue [s.map.loaded, s.unit.restartPending, s.map.latch, s.buf.pressure, s.buf.flush.isSome, s.jrn.full,
     (m.map (·.abortPending)).getD false, s.unit.holdUp]),
   (5, 1, codeIn [Stage.emptying, .checkpoint, .shutdown] s.unit.stage),
   (6, 2, (s.buf.slots.filter fun sl => sl.draining = false).length),
   (8, 1, (s.buf.slots.filter fun sl => sl.draining = true).length),
   (9, 1, s.host.entries.length),
   (10, 1, (s.host.entries.filter fun e => e.kind = .write ∧ e.standing = .waiting ∧ e.mask ≠ 0#64).length),
   (11, 1, s.host.persists.length),
   (12, 1, (s.host.entries.filter fun e => e.standing = .persistWaiting).length),
   (13, 1, s.media.inflight.length),
   (14, 1, s.requestsOf .journal), (15, 1, s.requestsOf .hostRead), (16, 1, s.requestsOf .drain),
   (17, 1, s.requestsOf .checkpoint), (18, 1, s.requestsOf .copy),
   (19, 1, codeIn [MigPhase.quiesce, .copy, .commitWait] (m.map (·.phase))),
   (20, 4, s.host.acceptSeq.toNat), (24, 4, s.time.tick.toNat), (28, 4, s.time.nextBoundary.toNat),
   (32, 2, s.time.sweeps), (34, 1, s.mig.retireQueue.length), (35, 1, s.mig.backQueue.length)]

/-- Bytes 36 to 71 of GET_STATUS (Table 11.5). -/
def statusFieldsWork (s : State) : List (Nat × Nat × Nat) :=
  let m := s.mig.current
  let c := s.jrn.checkpoint
  let d := s.jrn.descriptor
  [(36, 2, (m.map (·.logical)).getD 0), (38, 2, (m.map (·.source)).getD 0), (40, 2, (m.bind (·.target)).getD 0),
   (42, 1, codeIn reasons (m.map (·.reason))), (43, 1, (m.map (·.copyIndex)).getD 0),
   (44, 1, ((List.range 64).filter fun i => ((m.map (·.pendingPoison)).getD 0#64).getLsbD i).length),
   (45, 1, s.jrn.staging.length), (46, 1, s.jrn.waiters.length),
   (47, 1, codeIn [CheckpointPhase.starting, .image, .header] (c.map (·.phase))),
   (48, 2, s.jrn.head), (50, 2, s.jrn.tail),
   (52, 2, if s.jrn.full = true then 2048 else (s.jrn.head + 2048 - s.jrn.tail) % 2048),
   (54, 2, (c.map (·.linesWritten)).getD 0), (56, 4, s.jrn.nextSeq.toNat),
   (60, 1, codeIn [Area.a, .b] (d.map (·.area))), (61, 1, codeIn [false, true] (d.map (·.clean))),
   (62, 4, (d.map (·.seq.toNat)).getD 0), (66, 4, (d.map (·.posSeq.toNat)).getD 0),
   (70, 2, (d.map (·.posSlot)).getD 0)]

/-- Bytes 72 to 98 of GET_STATUS (Table 11.5). -/
def statusFieldsLast (s : State) : List (Nat × Nat × Nat) :=
  let r := s.mig.lastResult
  let k := s.mig.levelCheck
  let f := k.bind (·.figures)
  [(72, 1, codeIn [MigResult.committed, .aborted, .noSpare, .overdue, .evicted] (r.map (·.result))),
   (73, 1, codeIn reasons (r.map (·.reason))), (74, 2, (r.map (·.logical)).getD 0),
   (76, 4, (r.map (·.tick.toNat)).getD 0),
   (80, 1, codeIn [LevelOutcome.queued, .dropped, .belowThreshold, .levelPending, .noSpare, .protected_]
     (k.map (·.outcome))),
   (81, 4, (k.map (·.tick.toNat)).getD 0), (85, 2, (f.map (·.hottest)).getD 0), (87, 2, (f.map (·.owner)).getD 0),
   (89, 4, (f.map (·.wear)).getD 0), (93, 2, (f.map (·.head)).getD 0), (95, 4, (f.map (·.headWear)).getD 0)]

/-- The fields of GET_STATUS (Table 11.5). -/
def statusFields (s : State) : List (Nat × Nat × Nat) := statusFieldsUnit s ++ statusFieldsWork s ++ statusFieldsLast s

/-- The fields of GET_HEALTH (Table 11.6), by Tables 10.4 and 10.5. -/
def healthFields (s : State) : List (Nat × Nat × Nat) :=
  let e := s.media.lastError
  let h := s.health
  let derived := fun n : Nat => if s.map.loaded = true then n else 0
  [(0, 1, flagsValue [s.map.loaded, h.spareLow, h.lifeHigh, s.map.latch]),
   (1, 1, derived (100 * s.map.pool.length / s.spareCount)),
   (2, 1, derived (min 255 (100 * s.hottestWear / s.retireWear))),
   (3, 1, codeIn [MediaEvent.corrected, .uncorrectable, .programFail, .timeout, .secondTimeout] (e.map (·.event))),
   (4, 2, derived s.map.pool.length), (6, 2, derived (s.map.frames.filter fun r => r.role = .retired).length),
   (8, 4, derived
     (s.map.entries.map fun x => ((List.range 64).filter fun i => x.poison.getLsbD i).length).sum),
   (12, 4, derived s.map.unclean), (16, 4, derived ((s.jrn.descriptor.map (·.seq.toNat)).getD 0)),
   (20, 4, h.correctedReads), (24, 4, h.uncorrectableReads), (28, 4, h.programFails), (32, 4, h.drains),
   (36, 4, h.lostWrites), (40, 4, h.migrationsRetire), (44, 4, h.migrationsLevel), (48, 4, h.migrationsManual),
   (52, 4, h.migrationsAborted), (56, 4, (e.map (·.physical)).getD 0),
   (60, 1, codeIn [false, true] (e.map (·.isWrite))), (61, 1, codeIn mediaClasses (e.map (·.cls))),
   (62, 1, (e.map (·.bits)).getD 0), (63, 4, (e.map (·.tick.toNat)).getD 0)]

/-- The fields of GET_IDENTITY (Table 11.7). -/
def identityFields (s : State) : List (Nat × Nat × Nat) :=
  let g := if s.unit.standing = some .inUse ∨ s.unit.standing = some .mismatch then s.unit.geometry else none
  let u := if s.unit.standing = some .inUse then s.unit.geometry else none
  [(0, 2, 0x4816), (2, 1, codeIn [Standing.inUse, .invalid, .mismatch] s.unit.standing),
   (3, 1, s.unit.sizeStraps.toNat + 1), (4, 1, 0x58 + s.unit.addrStraps.toNat), (5, 1, g.isSome.toNat),
   (6, 2, (g.map (·.spares)).getD 0), (8, 4, (g.map (·.retireWear)).getD 0), (12, 4, (g.map (·.formatCount)).getD 0),
   (16, 1, (g.map (·.nP / 1024)).getD 0), (17, 2, (u.map metaCount).getD 0), (19, 2, (u.map logicalCount).getD 0)]

/-- The command comes from the management link, or reads from it. -/
def fromLink (c : Instr) : Bool :=
  (linkFields c).isSome
    || (match c with
        | .unknownCommand _ _ _ => true
        | .requestNotWellFormed _ => true
        | .responseRead _ => true
        | _ => false)

/-- The event flags with one event set. -/
def State.flagged (s : State) (e : Event) : ManagementLink := { s.link with flags := s.link.flags ||| e.flag }

end Sys2Proof.Machine
end

