-- ==== Sys2Proof/WellFormed.lean ====
section
/-! DEFINITION. Which terms of Instr stand for something that can reach the part: bounds of operands, identities and link messages. -/

namespace Sys2Proof

/-- A completion carries 64 data bytes and the code's number of check bytes (R63, R71). -/
def Stored.wf (w : Stored) : Bool := w.check.length = Config.eccCode.checkCount

/-- A link command's parameters fit a request message, and a SET_FENCE row carries its own choice (Table 11.1, Table 11.3). -/
def linkWf (i : Instr) : Bool :=
  match i with
  | .setFenceVolatile _ p => p.length ≤ maxParams && !persistentChoice p
  | .setFencePersistent _ p => p.length ≤ maxParams && persistentChoice p
  | .unknownCommand code _ p => p.length ≤ maxParams && !knownCode code
  | .requestNotWellFormed bytes => !wellFormedTransfer bytes
  | _ =>
    match linkFields i with
    | some f => f.2.length ≤ maxParams
    | none => true

/-- The completion of a FORMAT operation carries what its kind gives. -/
def FormatCompletion.wf : FormatCompletion → Bool
  | .read st => st.wf
  | .write _ => true

/-- A command that can reach the part: logical lines of the time-driven rows lie within the widest window (R188),
read completions carry the check bytes of the part's code, link messages fit their form. -/
def Instr.wf (i : Instr) : Bool :=
  match i with
  | .drainAgeReached line => line < 67108864
  | .stampAgeClamp line => line < 67108864
  | .hostReadReturn _ st => st.wf
  | .fillReadComplete _ st => st.wf
  | .copyReadComplete _ st => st.wf
  | .formatOperationComplete _ c => c.wf
  | .recoveryReadComplete _ st => st.wf
  | _ => linkWf i

end Sys2Proof
end

