-- ==== Sys2Proof/Certificates/Slice0/Obligations.lean ====
section
/-! DEFINITION. The statements for the provers: what the commands do, by the numbered rules; the invariants every step keeps; the link's messages. -/

open Sys2Proof Sys2Proof.Machine

/-! ### The machine: its queue, its ticks, its reset state -/

/-- With a command at the front of the queue, a step is the command's meaning on the state with the queue's rest. -/
def Obligations.StepRunsFrontCommand : Prop :=
  ∀ (c : Instr) (rest : List Instr) (s : State), s.pending = c :: rest → step s = exec c (s.setPending rest)

/-- On an empty queue a step is one tick of R170. In RESET the counter stands and nothing changes. In every other state
the counter rises by 1 with wrap, nothing leaves the ports, and the commands that time brings wait in the queue, and no
other: STAMP_AGE_CLAMP for each slot of which the stamp or the re-dirty mark's tick stands 2^30 ticks behind (R26);
DRAIN_AGE_REACHED for each DIRTY slot whose age has reached DrainAge (R28); ATTEMPT_TIMEOUT for each place whose attempt
has reached its deadline (R75); SWEEP_BOUNDARY exactly when the counter has reached the held boundary (R171). That a step
on an empty queue is a tick, and the order of the commands, are the model's choice (log entry 2). -/
def Obligations.EmptyQueueTicksTheCounter : Prop :=
  ∀ s : State, s.pending = [] →
    (s.unit.state = .reset → step s = .next s) ∧
    (s.unit.state ≠ .reset → ∀ (now : Word32) (clamps ages deadlines : List Instr), now = s.time.tick + 1 →
      clamps = (s.buf.slots.filter fun sl =>
        (now - sl.stamp).toNat = 2 ^ 30 ∨ sl.redirty.any (fun m => (now - m.tick).toNat = 2 ^ 30)).map
          (fun sl => .stampAgeClamp sl.line) →
      ages = (s.buf.slots.filter fun sl => sl.draining = false ∧ (now - sl.stamp).toNat = s.time.active.drainAge).map
          (fun sl => .drainAgeReached sl.line) →
      deadlines = ((List.finRange 8).filter fun p =>
        ∃ op ∈ s.media.inflight, op.id.place = p ∧ op.limit ≤ (now - op.sent).toNat).map .attemptTimeout →
      ∀ q, q = clamps ++ ages ++ deadlines ++ (if now = s.time.nextBoundary then [Instr.sweepBoundary] else []) →
      step s = .next { s with out := Outputs.none, pending := q, time := { s.time with tick := now } } ∧
      (Instr.sweepBoundary ∈ q ↔ s.time.tick + 1 = s.time.nextBoundary))

/-- The state after reset: what the rules give for hard reset. Straps, hold-up level and the held boundary, for which
no rule gives a value, are not stated (log entry 10).
The state after reset meets every invariant of this file. -/
def Obligations.ResetStateIsAsTheRulesGive : Prop :=
  (State.reset.unit.state = .reset ∧ State.reset.unit.safeOrigin = none ∧ State.reset.unit.standing = none ∧
  State.reset.unit.failCause = none ∧ State.reset.unit.restartPending = false ∧
  State.reset.map = MapController.unloaded ∧ State.reset.buf = ⟨[], [], false, none⟩ ∧
  State.reset.host = ⟨[], 0#32, []⟩ ∧ State.reset.mig = ⟨none, [], [], none, none⟩ ∧
  State.reset.media = MediaPort.empty ∧ State.reset.jrn.staging = [] ∧ State.reset.jrn.waiters = [] ∧
  State.reset.jrn.checkpoint = none ∧ State.reset.jrn.descriptor = none ∧ State.reset.health = HealthMonitor.zero ∧
  State.reset.time.tick = 0#32 ∧ State.reset.time.sweeps = 0 ∧
  State.reset.time.active = ⟨4000, 384, 256, 1000000, 300, 1000000, 64, 20000, 10, 90⟩ ∧
  State.reset.time.staged = State.reset.time.active ∧ State.reset.link = ⟨none, 0#17, 0#17⟩ ∧
  State.reset.attention = false) ∧
  (State.reset.Bounded ∧ State.reset.OneOperationPerLine ∧ State.reset.health.bounded = true ∧
  State.reset.SettingsSound ∧ State.reset.UnitSound ∧ State.reset.LatchSound ∧ State.reset.StoppedSound ∧
  State.reset.MapSound ∧ State.reset.PoolOrdered)

/-! ### Invariants -/

/-- No step overfills a table of the part or takes a place twice: 512 slots of different lines, four drain places, 32
tags, 8 pending PERSISTs, 8 queued migrations, 16 staged records, 8 places in flight, promotion counts to 32.
No step takes a health counter past 4,294,967,295 (R178). -/
def Obligations.StepKeepsEveryTableInBounds : Prop :=
  (∀ s t : State, s.Bounded → step s = .next t → t.Bounded) ∧
  (∀ s t : State, s.health.bounded = true → step s = .next t → t.health.bounded = true)

/-- No step puts a second operation to a physical line in flight (R68), from a state in which no two operations in flight
hold one place, which every step keeps (R67).
Every step keeps the Media Port empty in RESET and FAILED. -/
def Obligations.StepKeepsTheMediaPortSound : Prop :=
  (∀ s t : State, (s.media.inflight.map (·.id.place)).Nodup → s.OneOperationPerLine → step s = .next t →
    t.OneOperationPerLine) ∧
  (∀ s t : State, s.StoppedSound → step s = .next t → t.StoppedSound)

/-- Every step keeps each setting of both sets in its range and the active LowWater below the active HighWater. -/
def Obligations.StepKeepsSettingsSound : Prop :=
  ∀ s t : State, s.SettingsSound → step s = .next t → t.SettingsSound

/-- Every step keeps each item of Unit Control present in exactly its unit states.
No step leaves the unit ONLINE with the write-protect latch set. -/
def Obligations.StepKeepsUnitControlSound : Prop :=
  (∀ s t : State, s.UnitSound → step s = .next t → t.UnitSound) ∧
  (∀ s t : State, s.LatchSound → step s = .next t → t.LatchSound)

/-! ### Rules of the whole machine -/

/-- The unit state changes only by the transitions of Table 8.2 and chapter 9, each by its own causes.
Whenever a command changes the unit state, STATE_CHANGED stands afterwards, except on entry to RESET, which clears
every event flag; after a volatile reset too, whose entry to RECOVERING raises it anew (the model's choice, log entry 16). -/
def Obligations.UnitStateChangesOnlyAsTabled : Prop :=
  (∀ (c : Instr) (s t : State), s.UnitSound → s.StoppedSound → exec c s = .next t → t.unit.state ≠ s.unit.state →
    mayPass c s.unit.state t.unit.state = true) ∧
  (∀ (c : Instr) (s t : State), exec c s = .next t → t.unit.state ≠ s.unit.state → t.unit.state ≠ .reset →
    t.raised .stateChanged = true)

/-- In FAILED no command that leaves the unit FAILED changes the tables, the migration engine, the staging queue or the
waiting creators. -/
def Obligations.FailedKeepsTablesAndQueues : Prop :=
  ∀ (c : Instr) (s t : State), s.StoppedSound → s.unit.state = .failed → exec c s = .next t →
    t.unit.state = .failed →
    t.map = s.map ∧ t.mig = s.mig ∧ t.jrn.staging = s.jrn.staging ∧ t.jrn.waiters = s.jrn.waiters

/-- The event enables change only by SET_EVENT_ENABLE, which replaces the whole set, and by a hard or volatile reset,
which disables every event: the assertion of reset, RESTART, and the completion that ends CLOSING with restart pending.
The pending response changes only by a transfer on the management link and by the assertion of reset. -/
def Obligations.LinkStateChangesOnlyAsRuled : Prop :=
  (∀ (c : Instr) (s t : State), exec c s = .next t →
    t.link.enables = s.link.enables ∨
    (∃ tag params, c = .setEventEnable tag params ∧ t.link.enables = BitVec.ofNat 17 (leValue (params.take 4))) ∨
    (t.link.enables = 0#17 ∧ ResetBy c s t)) ∧
  (∀ (c : Instr) (s t : State), exec c s = .next t → fromLink c = false → c ≠ .resetAssert →
    t.link.response = s.link.response)

/-- The active settings change only where a commit copies a staged set whose LowWater is below its HighWater, and by a
hard or volatile reset, which restores the defaults.
No command moves the tick counter but by setting it to 0 at such a reset or at the release of reset, and only
SWEEP_BOUNDARY moves the held boundary otherwise. That a reset holds the boundary at 1,000,000 before the release sets it
there is the model's choice (log entry 10). -/
def Obligations.TimeBaseChangesOnlyAsRuled : Prop :=
  (∀ (c : Instr) (s t : State), exec c s = .next t →
    t.time.active = s.time.active ∨
    (t.time.active = s.time.staged ∧ s.time.staged.lowWater < s.time.staged.highWater ∧
      (c = .sweepBoundary ∨ ∃ tag params, c = .commitSettings tag params)) ∨
    (t.time.active = Settings.defaults ∧ t.time.staged = Settings.defaults ∧ ResetBy c s t)) ∧
  (∀ (c : Instr) (s t : State), exec c s = .next t →
    (t.time.tick = s.time.tick ∧ (t.time.nextBoundary = s.time.nextBoundary ∨ c = .sweepBoundary)) ∨
    (t.time.tick = 0#32 ∧ t.time.nextBoundary = 1000000#32 ∧
      (ResetBy c s t ∨ ∃ v a, c = .resetRelease v a ∧ s.unit.state = .reset)))

/-- Every host response other than DATA carries 64 zero bytes.
The fields of the host port's messages: a request's kind code 0 gives a READ, 1 a WRITE, 2 a PERSIST, and 3 names no kind
(Table 11.12); a response's code is 0 DATA, 1 DONE, 2 FENCED, 3 POISON, 4 REFUSED, 5 NOT_READY (Table 11.13). -/
def Obligations.OnlyDataResponsesCarryBytes : Prop :=
  (∀ (c : Instr) (s t : State), exec c s = .next t → ∀ r ∈ t.out.host, r.code ≠ .data → r.data = zeroLine) ∧
  (∀ (kind : BitVec 2) (tag : BitVec 5) (line : BitVec 26) (mask : Flags64) (data : LineData),
    (kind = 0#2 → decodeHostRequest kind tag line mask data = .hostRead tag line) ∧
    (kind = 1#2 → decodeHostRequest kind tag line mask data = .hostWrite tag line mask data) ∧
    (kind = 2#2 → decodeHostRequest kind tag line mask data = .hostPersist tag line) ∧
    (kind = 3#2 → decodeHostRequest kind tag line mask data = .hostUnknownKind tag line)) ∧
  (HostCode.data.field = 0#3 ∧ HostCode.done.field = 1#3 ∧ HostCode.fenced.field = 2#3 ∧ HostCode.poison.field = 3#3 ∧
    HostCode.refused.field = 4#3 ∧ HostCode.notReady.field = 5#3)

/-- No command touches the queue of waiting commands, and every command has a next state. -/
def Obligations.EveryCommandAnswersANextState : Prop :=
  ∀ (c : Instr) (s : State), ∃ t, exec c s = .next t ∧ t.pending = s.pending

/-! ### Pins: the reset input and the hold-up warning (ch8, ch9) -/

/-- RESET_ASSERT puts every block at its hard-reset value, keeps the sampled straps and the level of the warning, and
tells the medium to discard its outstanding attempts. Asserted already, it changes nothing (log entry 28).
RESET_RELEASE samples the straps, starts the counter from 0 with the first boundary at 1,000,000, enters RECOVERING
and requests the read of the geometry record; with the warning asserted the unit is SAFE with origin DRAIN_LOCK at once
and no read is requested. Outside RESET it changes nothing of its own (log entry 28). That the assertion keeps straps and
level and holds the boundary at 1,000,000 until the release is the model's choice (log entry 10). -/
def Obligations.ResetInputMakesTheHardResetAndRecovery : Prop :=
  (∀ s : State,
    (s.unit.state ≠ .reset → exec .resetAssert s = .next { State.reset with
      unit := { State.reset.unit with
        sizeStraps := s.unit.sizeStraps, addrStraps := s.unit.addrStraps, holdUp := s.unit.holdUp }
      out := { Outputs.none with mediaDiscard := true }
      pending := s.pending }) ∧
    (s.unit.state = .reset → s.quiet = true → exec .resetAssert s = .next { s with out := Outputs.none })) ∧
  (∀ (v : BitVec 6) (a : BitVec 2) (s : State),
    (s.unit.state = .reset → s.StoppedSound → s.unit.holdUp = false → exec (.resetRelease v a) s = .next (settle { s with
      out := Outputs.none
      unit := { s.unit with
        state := .recovering, sizeStraps := v, addrStraps := a, recovery := some recoveryStart, safeOrigin := none }
      time := { s.time with tick := 0#32, nextBoundary := 1000000#32 }
      media := { s.media with arriving := [unitRequest .read 0] }
      link := s.flagged .stateChanged })) ∧
    (s.unit.state = .reset → s.StoppedSound → s.unit.holdUp = true → exec (.resetRelease v a) s = .next (settle { s with
      out := Outputs.none
      unit := { s.unit with
        state := .safe, sizeStraps := v, addrStraps := a, recovery := none, safeOrigin := some .drainLock,
        standing := none, geometry := none, format := none }
      time := { s.time with tick := 0#32, nextBoundary := 1000000#32 }
      map := MapController.unloaded
      media := { s.media with promoCheckpoint := 0, promoCopy := 0 }
      link := s.flagged .stateChanged })) ∧
    (s.unit.state ≠ .reset → exec (.resetRelease v a) s = .next (settle { s with out := Outputs.none })))

/-- HOLD_UP_ASSERT by unit state (Table 9.1). ONLINE, WRITE_PROTECTED and CLOSING enter DRAIN_LOCK (R159): the queue is
emptied and the hold marks are removed; a migration in COMMIT_WAIT goes on, one in QUIESCE or COPY takes an abort, its
waiting request withdrawn (R104); a checkpoint in progress is abandoned, its waiting request withdrawn and its write in
flight left to an outcome that changes nothing (R134); every waiting write is answered REFUSED in order of arrival, and a
READ held behind one is served, here from the medium (R48). RECOVERING and FORMATTING abandon their work into SAFE with
the tables unloaded; every other state takes the level alone. Asserted already, it changes nothing of its own (log entry 28).
HOLD_UP_DEASSERT leaves SAFE with origin DRAIN_LOCK: with the tables loaded an OPEN record is handed over, here to a
staging queue with room, and the unit is WRITE_PROTECTED or ONLINE by the latch; with the tables not loaded recovery
begins. In every other state it takes the level alone; deasserted already, it changes nothing of its own (log entry 28). -/
def Obligations.HoldUpWarningActsByUnitState : Prop :=
  (∀ s : State,
    (s.unit.holdUp = true → exec .holdUpAssert s = .next (settle { s with out := Outputs.none })) ∧
    (s.unit.holdUp = false → s.unit.state ∈ [.reset, .drainLock, .safe, .unformatted, .failed] →
      exec .holdUpAssert s = .next (settle { s with out := Outputs.none, unit := { s.unit with holdUp := true } })) ∧
    (s.unit.holdUp = false → s.unit.state ∈ [.online, .writeProtected, .closing] → ∀ u : State, u = { s with
        out := Outputs.none
        unit := { s.unit with
          state := .drainLock, holdUp := true, restartPending := false,
          stage := some (if s.unit.state = .closing ∧ s.unit.stage = some .shutdown then .shutdown else .emptying) }
        map := { s.map with
          entries := s.map.entries.map fun e => { e with migrationMark := false, failMark := false } }
        mig := { s.mig with retireQueue := [], backQueue := [] }
        link := s.flagged .stateChanged } →
      ((∀ m, s.mig.current = some m → m.phase = .commitWait) → s.jrn.checkpoint = none →
        ((∀ e ∈ s.host.entries, e.standing ≠ .waiting) → exec .holdUpAssert s = .next (settle u)) ∧
        ((s.host.entries.map (·.tag)).Nodup → (∀ e ∈ s.host.entries, e.standing = .waiting → e.kind = .write) →
          exec .holdUpAssert s = .next (settle { u with
            out := { Outputs.none with
              host := (s.host.entries.filter fun e => e.standing = .waiting).map fun e => ⟨e.tag, .refused, zeroLine⟩ }
            host := { s.host with entries := s.host.entries.filter fun e => e.standing ≠ .waiting } })) ∧
        (∀ w r, s.host.entries = [w, r] → w.tag ≠ r.tag → w.kind = .write → w.standing = .waiting → r.kind = .read →
          r.standing = .waiting → s.slot? r.line = none → s.losing r.line = false → s.poisoned r.line = false →
          exec .holdUpAssert s = .next (settle { u with
            out := oneResponse w.tag .refused zeroLine
            host := { s.host with entries := [{ r with standing := .reading false }] }
            media := { s.media with
              arriving := s.media.arriving ++ [⟨.hostRead, .host r.tag, .read, s.physicalOf r.line⟩] } }))) ∧
      (∀ m, (∀ e ∈ s.host.entries, e.standing ≠ .waiting) → s.mig.current = some m → m.phase ≠ .commitWait →
        s.jrn.checkpoint = none → s.media.arriving = [] →
        (∀ r ∈ s.media.waiting, r.cls = .copy ↔ r.requester = .engine) →
        exec .holdUpAssert s = .next (settle { u with
          mig := { s.mig with retireQueue := [], backQueue := [], current := some { m with abortPending := true } }
          media := { s.media with
            waiting := s.media.waiting.filter fun r => r.requester ≠ .engine
            promoCheckpoint := if ∃ r ∈ s.media.waiting, r.cls = .checkpoint then s.media.promoCheckpoint else 0
            promoCopy := 0 } })) ∧
      ((∀ e ∈ s.host.entries, e.standing ≠ .waiting) → (∀ m, s.mig.current = some m → m.phase = .commitWait) →
        s.jrn.checkpoint ≠ none → s.media.arriving = [] →
        (∀ r ∈ s.media.waiting, r.cls = .checkpoint ↔ r.requester = .checkpoint) →
        exec .holdUpAssert s = .next (settle { u with
          jrn := { s.jrn with checkpoint := none }
          media := { s.media with
            waiting := s.media.waiting.filter fun r => r.requester ≠ .checkpoint
            inflight := s.media.inflight.map fun op =>
              if op.request.requester = .checkpoint then { op with request := { op.request with requester := .orphan } }
              else op
            promoCheckpoint := 0
            promoCopy := if ∃ r ∈ s.media.waiting, r.cls = .copy then s.media.promoCopy else 0 } }))) ∧
    (s.unit.holdUp = false → s.unit.state ∈ [.recovering, .formatting] →
      s.media.arriving = [] → (∀ r ∈ s.media.waiting, r.requester = .unitControl) →
      exec .holdUpAssert s = .next (settle { s with
        out := Outputs.none
        unit := { s.unit with
          state := .safe, holdUp := true, safeOrigin := some .drainLock, standing := none, geometry := none,
          format := none, recovery := none }
        map := MapController.unloaded
        media := { s.media with
          waiting := [], promoCheckpoint := 0, promoCopy := 0,
          inflight := s.media.inflight.filter fun op => op.request.requester ≠ .unitControl }
        link := s.flagged .stateChanged }))) ∧
  (∀ s : State,
    (s.unit.holdUp = true → s.unit.state = .safe → s.unit.safeOrigin = some .drainLock → s.map.loaded = true →
      s.jrn.waiters = [] → s.jrn.staging.length < 16 →
      exec .holdUpDeassert s = .next (settle { s with
        out := Outputs.none
        unit := { s.unit with
          state := if s.map.latch = true then .writeProtected else .online, holdUp := false, safeOrigin := none }
        jrn := { s.jrn with staging := s.jrn.staging ++ [{ creator := .unitControl, record := .opened, seq := none }] }
        link := s.flagged .stateChanged })) ∧
    (s.unit.holdUp = true → s.unit.state = .safe → s.unit.safeOrigin = some .drainLock → s.map.loaded = false →
      exec .holdUpDeassert s = .next (settle { s with
        out := Outputs.none
        unit := { s.unit with
          state := .recovering, holdUp := false, safeOrigin := none, recovery := some recoveryStart }
        media := { s.media with arriving := s.media.arriving ++ [unitRequest .read 0] }
        link := s.flagged .stateChanged })) ∧
    (s.unit.holdUp = true → (s.unit.state ≠ .safe ∨ s.unit.safeOrigin ≠ some .drainLock) →
      exec .holdUpDeassert s = .next (settle { s with out := Outputs.none, unit := { s.unit with holdUp := false } })) ∧
    (s.unit.holdUp = false → exec .holdUpDeassert s = .next (settle { s with out := Outputs.none })))

/-! ### Time (ch2, ch4, ch10) -/

/-- SWEEP_BOUNDARY where no sweep is made. Before its tick, and in RESET, nothing happens (the model's choice for a command
that comes before its tick, log entry 3); in RECOVERING only the next boundary is set; in SAFE, UNFORMATTED, FORMATTING,
FAILED, DRAIN_LOCK and CLOSING the settings commit is made as well. In CLOSING a boundary at which used stands at 1,536 or
more starts a checkpoint, not clean, unless one is in progress (R128); nothing else follows of its own.
The position, image and counts of a checkpoint that starts, which the image fix sets, stand at 0 or empty until then (the
model's choice, log entry 41). -/
def Obligations.SweepBoundaryOutsideServiceCommitsSettingsAlone : Prop :=
  ∀ s : State,
    (s.time.tick ≠ s.time.nextBoundary ∨ s.unit.state = .reset →
      exec .sweepBoundary s = .next (settle { s with out := Outputs.none })) ∧
    (s.time.tick = s.time.nextBoundary → s.unit.state = .recovering →
      exec .sweepBoundary s = .next (settle { s with
        out := Outputs.none
        time := { s.time with nextBoundary := s.time.nextBoundary + BitVec.ofNat 32 s.time.active.sweepPeriod } })) ∧
    (∀ (d : Descriptor) (used : Nat) (jrn : JournalController), s.time.tick = s.time.nextBoundary →
      s.unit.state ∈ [.safe, .unformatted, .formatting, .failed, .drainLock, .closing] →
      (s.unit.state = .closing → s.jrn.descriptor = some d) →
      used = (if s.jrn.full = true then 2048 else (s.jrn.head + 2048 - s.jrn.tail) % 2048) →
      jrn = (if s.unit.state = .closing ∧ 1536 ≤ used ∧ s.jrn.checkpoint = none then { s.jrn with
          checkpoint := some {
            phase := .starting, area := if d.area = .a then .b else .a, seq := d.seq + 1, posSeq := 0#32, posSlot := 0
            clean := false, linesWritten := 0, image := Image.none, imageCheck := 0#32, slotsTaken := 0 } }
        else s.jrn) →
      (s.time.staged = s.time.active →
        exec .sweepBoundary s = .next (settle { s with
          out := Outputs.none
          time := { s.time with nextBoundary := s.time.nextBoundary + BitVec.ofNat 32 s.time.active.sweepPeriod }
          jrn := jrn })) ∧
      (s.time.staged ≠ s.time.active → s.time.staged.lowWater < s.time.staged.highWater →
        exec .sweepBoundary s = .next (settle { s with
          out := Outputs.none
          time := { s.time with
            active := s.time.staged
            nextBoundary := s.time.nextBoundary + BitVec.ofNat 32 s.time.staged.sweepPeriod }
          buf := { s.buf with
            pressure :=
              if s.buf.pressure = true then decide (s.time.staged.lowWater < s.buf.slots.length)
              else decide (s.time.staged.highWater ≤ s.buf.slots.length) }
          jrn := jrn
          link := s.flagged .settingsCommitted })) ∧
      (s.time.staged ≠ s.time.active → s.time.staged.highWater ≤ s.time.staged.lowWater →
        exec .sweepBoundary s = .next (settle { s with
          out := Outputs.none
          time := { s.time with nextBoundary := s.time.nextBoundary + BitVec.ofNat 32 s.time.active.sweepPeriod }
          jrn := jrn
          link := s.flagged .settingsRejected })))

/-- SWEEP_BOUNDARY in ONLINE and WRITE_PROTECTED: the time base after it, the two alert flags set to their conditions
with HEALTH_ALERT raised where one has become set, a checkpoint in progress once the sweep count has reached
CheckpointEvery, and the level check record of this boundary's tick, with figures where the check was made. The active set
is here the staged one, or the commit would be refused.
With no retire-wanted frame to be offered again, the sets equal and no checkpoint to start, the whole effect: the record is
PROTECTED in WRITE_PROTECTED, LEVEL_PENDING with a LEVEL request in hand and NO_SPARE with the pool empty (the order of
these three is the model's choice, log entry 34); otherwise the hottest frame, the lowest-numbered MAPPED frame of highest
wear, is compared with the pool head: BELOW_THRESHOLD, or QUEUED with a LEVEL request of its owner at the tail of the
back class, or DROPPED where the owner is queued, moving or overdue or the queue is full. -/
def Obligations.SweepBoundaryInServiceSweepsAndCounts : Prop :=
  (∀ s : State, (s.unit.state = .online ∨ s.unit.state = .writeProtected) → s.time.tick = s.time.nextBoundary →
    s.time.staged.lowWater < s.time.staged.highWater →
    ∃ t, exec .sweepBoundary s = .next t ∧
      t.time = { s.time with
        active := s.time.staged
        nextBoundary := s.time.nextBoundary + BitVec.ofNat 32 s.time.staged.sweepPeriod
        sweeps := if s.time.sweeps < 65535 then s.time.sweeps + 1 else s.time.sweeps } ∧
      t.health.spareLow = decide (100 * s.map.pool.length / s.spareCount < s.time.staged.spareAlert) ∧
      t.health.lifeHigh = decide (s.time.staged.lifeAlert ≤ min 255 (100 * s.hottestWear / s.retireWear)) ∧
      ((t.health.spareLow = true ∧ s.health.spareLow = false) ∨ (t.health.lifeHigh = true ∧ s.health.lifeHigh = false) →
        t.raised .healthAlert = true) ∧
      (s.time.staged.checkpointEvery ≤ t.time.sweeps → t.jrn.checkpoint.isSome = true) ∧
      (∃ outcome figures, t.mig.levelCheck = some ⟨s.time.tick, outcome, figures⟩ ∧
        (figures = none ↔ outcome ∈ [.protected_, .levelPending, .noSpare]))) ∧
  (∀ (s : State) (used count : Nat) (low high : Bool), s.time.tick = s.time.nextBoundary →
    s.time.staged = s.time.active →
    (∀ r ∈ s.map.frames, r.role = .mapped → r.wanted = true → r.overdue = true) →
    used = (if s.jrn.full = true then 2048 else (s.jrn.head + 2048 - s.jrn.tail) % 2048) →
    count = (if s.time.sweeps < 65535 then s.time.sweeps + 1 else s.time.sweeps) →
    s.jrn.checkpoint ≠ none ∨ (used < 1536 ∧ count < s.time.active.checkpointEvery) →
    low = decide (100 * s.map.pool.length / s.spareCount < s.time.active.spareAlert) →
    high = decide (s.time.active.lifeAlert ≤ min 255 (100 * s.hottestWear / s.retireWear)) →
    ∀ (done : LevelOutcome → Option LevelFigures → List MigRequest → Host.Outcome State Fault Refusal),
    (∀ outcome figures joined, done outcome figures joined = .next (settle { s with
      out := Outputs.none
      time := { s.time with
        nextBoundary := s.time.nextBoundary + BitVec.ofNat 32 s.time.active.sweepPeriod, sweeps := count }
      mig := { s.mig with
        backQueue := s.mig.backQueue ++ joined, levelCheck := some ⟨s.time.tick, outcome, figures⟩ }
      health := { s.health with spareLow := low, lifeHigh := high }
      link := if (low && !s.health.spareLow) || (high && !s.health.lifeHigh) then s.flagged .healthAlert
        else s.link })) →
    ∀ (pending : Prop), (pending ↔ (∃ q ∈ s.mig.backQueue, q.reason = .level) ∨
      ∃ m, s.mig.current = some m ∧ m.reason = .level) →
    (s.unit.state = .writeProtected → exec .sweepBoundary s = done .protected_ none []) ∧
    (s.unit.state = .online → pending → exec .sweepBoundary s = done .levelPending none []) ∧
    (s.unit.state = .online → ¬pending → s.map.pool = [] → exec .sweepBoundary s = done .noSpare none []) ∧
    (∀ (hot head owner : Nat) (rest : List Nat) (r hr : FrameRecord), s.unit.state = .online → ¬pending →
      s.map.pool = head :: rest → s.frame? head = some hr → s.frame? hot = some r → r.role = .mapped →
      (∀ f x, s.frame? f = some x → x.role = .mapped → x.wear < r.wear ∨ (x.wear = r.wear ∧ hot ≤ f)) →
      r.owner = some owner →
      ∀ figures, figures = some ⟨hot, owner, r.wear, head, hr.wear⟩ →
      ∀ (drops : Prop), (drops ↔ s.mig.isQueued owner = true ∨ s.mig.isMoving owner = true ∨
        s.overdueFrame owner = true ∨ 8 ≤ s.mig.queued) →
      (r.wear < hr.wear + s.time.active.levelThreshold → exec .sweepBoundary s = done .belowThreshold figures []) ∧
      (hr.wear + s.time.active.levelThreshold ≤ r.wear → drops → exec .sweepBoundary s = done .dropped figures []) ∧
      (hr.wear + s.time.active.levelThreshold ≤ r.wear → ¬drops →
        exec .sweepBoundary s = done .queued figures [⟨owner, .level⟩])))

/-- STAMP_AGE_CLAMP advances by one tick the stamp, and the tick of the re-dirty mark, of the line's slot where they
stand 2^30 ticks behind the counter. -/
def Obligations.StampAgeClampAdvancesOldStamps : Prop :=
  ∀ (line : Nat) (s : State), exec (.stampAgeClamp line) s = .next (settle { s with
    out := Outputs.none
    buf := { s.buf with
      slots := s.buf.slots.map fun sl =>
        if sl.line = line then
          { sl with
            stamp := if (s.time.tick - sl.stamp).toNat = 2 ^ 30 then sl.stamp + 1 else sl.stamp
            redirty := sl.redirty.map fun m =>
              { m with tick := if (s.time.tick - m.tick).toNat = 2 ^ 30 then m.tick + 1 else m.tick } }
        else sl } })

/-- DRAIN_ISSUE: the slot becomes DRAINING, a drain with its snapshot, covered sequence, physical line and poison flag
takes the lowest free place (which free place is the model's choice, log entry 11) with the first phase of Table 2.3, and
its first operation is requested in the DRAIN class.
DRAIN_AGE_REACHED for the slot that is next to drain makes the same issue, and the grants that follow it, where no other
follow-up event is enabled before or after it (the model's choice of what follows in one happening, log entries 1 and 19).
The slot that is next to drain is one that is ready: DIRTY, its line's frame held by neither mark, and due for a condition
of Table 2.2. No ready slot stands before it in the drain order: none is older, and none of its age has a lower oldest
sequence, counted from any base below all of them (R22). With no slot ready there is none, and DRAIN_ISSUE issues nothing.
The line that a drain in phase FILL has not yet formed stands as the snapshot over zeros (the model's choice, log entry 41). -/
def Obligations.DrainIssueTakesTheFirstPhase : Prop :=
  (∀ (p : Fin 4) (sl : Slot) (s u : State), s.working = true → freeDrainPlace s.buf = some p → s.nextToDrain = some sl →
    u = { s with
      out := Outputs.none
      buf := { s.buf with
        slots := s.buf.slots.map fun x => if x.line = sl.line then { x with draining := true, redirty := none } else x
        drains := s.buf.drains ++ [
          { place := p, line := sl.line, snapshot := sl.data, snapMask := sl.valid, covered := sl.newest,
            physical := s.physicalOf sl.line, poisoned := s.poisoned sl.line,
            formed := overlay sl.valid sl.data zeroLine,
            phase := if sl.valid ≠ fullMask ∧ s.poisoned sl.line = false then .fill else .write }] }
      media := { s.media with
        arriving := s.media.arriving ++ [
          { cls := .drain, requester := .drain p, physical := s.physicalOf sl.line
            kind := if sl.valid ≠ fullMask ∧ s.poisoned sl.line = false then .read
              else .write (.data (overlay sl.valid sl.data zeroLine)) }] } } →
    exec .drainIssue s = .next (settle u) ∧
    ((∀ e ∈ followUps.dropLast, e (beginHappening s) = none) → nextFollowUp u = none →
      exec (.drainAgeReached sl.line) s = .next (grantAll u))) ∧
  (∀ (s : State) (base : Word32), (∀ x ∈ s.buf.slots, (x.oldest - base).toNat < 2 ^ 31) →
    ∀ (ready : Slot → Prop), (∀ x, ready x ↔ x ∈ s.buf.slots ∧ x.draining = false ∧
      (∃ e, s.entry? (x.line / 64) = some e ∧ e.migrationMark = false ∧ e.failMark = false) ∧
      (s.time.active.drainAge ≤ (s.time.tick - x.stamp).toNat ∨ s.buf.pressure = true ∨
        (∃ p ∈ s.host.persists, (p.barrier - x.oldest).toNat < 2 ^ 31) ∨
        (∃ b, s.buf.flush = some b ∧ (b - x.oldest).toNat < 2 ^ 31) ∨
        s.unit.state = .drainLock ∨ s.unit.state = .closing)) →
    (s.nextToDrain = none ↔ ∀ x, ¬ready x) ∧
    (∀ sl, s.nextToDrain = some sl → ready sl ∧ ∀ x, ready x →
      (s.time.tick - x.stamp).toNat < (s.time.tick - sl.stamp).toNat ∨
      ((s.time.tick - x.stamp).toNat = (s.time.tick - sl.stamp).toNat ∧
        (sl.oldest - base).toNat ≤ (x.oldest - base).toNat))) ∧
  (∀ s : State, s.nextToDrain = none → exec .drainIssue s = .next (settle { s with out := Outputs.none }))

/-- ATTEMPT_TIMEOUT of a first attempt: TIMEOUT is recorded and a retry is sent from the same place, with the MediaTimeout
now active. With no attempt in the place at its deadline nothing happens (the model's choice, log entry 3).
ATTEMPT_TIMEOUT of a retry enters FAILED: SECOND_TIMEOUT is recorded as error and as cause, MEDIA_FAULT and
STATE_CHANGED are raised, every operation ends without result, every host request is answered NOT_READY or, where its
answer was held, DONE, and a checkpoint in progress is abandoned. Everything else stays as it was. -/
def Obligations.DeadlinesRetryOnceAndThenFail : Prop :=
  (∀ (place : Fin 8) (s : State),
    (s.overdueAttempt? place = none → exec (.attemptTimeout place) s = .next (settle { s with out := Outputs.none })) ∧
    (∀ op, s.overdueAttempt? place = some op → op.id.retry = false →
      exec (.attemptTimeout place) s = .next (settle { s with
        out := { Outputs.none with
          media := [{ id := { op.id with retry := true }, kind := op.request.kind, physical := op.request.physical }] }
        media := { s.media with
          lastError := some
            { physical := op.request.physical, isWrite := decide (op.request.kind ≠ .read), cls := op.request.cls,
              event := .timeout, bits := 0, tick := s.time.tick }
          inflight := s.media.inflight.map fun o =>
            if o.id = op.id then
              { op with
                id := { op.id with retry := true }, sent := s.time.tick, limit := s.time.active.mediaTimeout }
            else o } }))) ∧
  (∀ (place : Fin 8) (s : State) (op : InFlight), s.unit.state ≠ .failed → s.overdueAttempt? place = some op →
    op.id.retry = true →
    exec (.attemptTimeout place) s = .next { s with
      out := { Outputs.none with
        host := s.host.entries.map fun e =>
          { tag := e.tag, code := if e.standing = .answerHeld then .done else .notReady, data := zeroLine } }
      unit := { s.unit with
        state := .failed, failCause := some .secondTimeout, safeOrigin := none, stage := none,
        restartPending := false, format := none, recovery := none }
      host := { s.host with entries := [], persists := [] }
      media := { s.media with
        waiting := [], arriving := [], inflight := [], promoCheckpoint := 0, promoCopy := 0
        lastError := some
          { physical := op.request.physical, isWrite := decide (op.request.kind ≠ .read), cls := op.request.cls,
            event := .secondTimeout, bits := 0, tick := s.time.tick } }
      jrn := { s.jrn with writing := false, checkpoint := none }
      link := { s.link with flags := s.link.flags ||| Event.mediaFault.flag ||| Event.stateChanged.flag } })

/-! ### The host port (ch3, R188) -/

/-- What meets every arriving request before its kind is looked at: nothing is received in RESET; a request on an
occupied tag is discarded with HOST_PROTOCOL raised; NOT_READY where no tables are served; FENCED for a READ or WRITE at
or above the active fence. HOST_UNKNOWN_KIND is discarded with HOST_PROTOCOL raised in every state but RESET. -/
def Obligations.HostRequestsMeetTheArrivalChecks : Prop :=
  ∀ (tag : BitVec 5) (line : BitVec 26) (mask : Flags64) (data : LineData) (s : State),
    (s.unit.state = .reset →
      ∀ c ∈ [Instr.hostRead tag line, .hostWrite tag line mask data, .hostPersist tag line, .hostUnknownKind tag line],
        exec c s = .next (settle { s with out := Outputs.none })) ∧
    (s.unit.state ≠ .reset →
      exec (.hostUnknownKind tag line) s =
        .next (settle { s with out := Outputs.none, link := s.flagged .hostProtocol })) ∧
    (s.unit.state ≠ .reset → s.occupied tag = true →
      ∀ c ∈ [Instr.hostRead tag line, .hostWrite tag line mask data, .hostPersist tag line],
        exec c s = .next (settle { s with out := Outputs.none, link := s.flagged .hostProtocol })) ∧
    ((s.unit.state ∈ [.unformatted, .formatting, .recovering, .failed] ∨
        (s.unit.state = .safe ∧ s.map.loaded = false)) → s.occupied tag = false →
      ∀ c ∈ [Instr.hostRead tag line, .hostWrite tag line mask data, .hostPersist tag line],
        exec c s = .next (settle { s with out := oneResponse tag .notReady zeroLine })) ∧
    (s.serves → s.occupied tag = false → s.activeFence ≤ line.toNat / 64 →
      ∀ c ∈ [Instr.hostRead tag line, .hostWrite tag line mask data],
        exec c s = .next (settle { s with out := oneResponse tag .fenced zeroLine }))

/-- HOST_READ of a line no waiting write of which stands before it, by Table 3.4: DATA from a full slot; a wait while the
line's writes are being lost; POISON for a poisoned line, with no medium read; otherwise a medium read of the line's
physical line in the HOST_READ class. Behind a waiting write to its line it waits; behind a write whose answer alone is held
it is decided at once, so that its answer may leave before that write's DONE (the model's choice, log entry 36).
Zeros stand for the mask and data that the entry does not have (the model's choice, log entry 33). -/
def Obligations.HostReadIsDecidedAtItsService : Prop :=
  ∀ (tag : BitVec 5) (line : BitVec 26) (s : State), s.Passes tag line.toNat → s.HeldAnswersWait →
    (s.earlierWriteWaits line.toNat = true → exec (.hostRead tag line) s = .next (settle { s with
      out := Outputs.none
      host := { s.host with
        entries := s.host.entries ++ [⟨tag, .read, line.toNat, 0#64, zeroLine, .waiting⟩] } })) ∧
    (∀ sl, s.earlierWriteWaits line.toNat = false → s.slot? line.toNat = some sl → sl.valid = fullMask →
      exec (.hostRead tag line) s = .next (settle { s with out := oneResponse tag .data sl.data })) ∧
    (s.earlierWriteWaits line.toNat = false → (∀ sl, s.slot? line.toNat = some sl → sl.valid ≠ fullMask) →
      (s.losing line.toNat = true → exec (.hostRead tag line) s = .next (settle { s with
        out := Outputs.none
        host := { s.host with
          entries := s.host.entries ++ [⟨tag, .read, line.toNat, 0#64, zeroLine, .reading true⟩] } })) ∧
      (s.losing line.toNat = false → s.poisoned line.toNat = true →
        exec (.hostRead tag line) s = .next (settle { s with out := oneResponse tag .poison zeroLine })) ∧
      (s.losing line.toNat = false → s.poisoned line.toNat = false →
        exec (.hostRead tag line) s = .next (settle { s with
          out := Outputs.none
          host := { s.host with
            entries := s.host.entries ++ [⟨tag, .read, line.toNat, 0#64, zeroLine, .reading false⟩] }
          media := { s.media with
            arriving := s.media.arriving ++ [⟨.hostRead, .host tag, .read, s.physicalOf line.toNat⟩] } })))

/-- HOST_WRITE accepted in ONLINE: the accept sequence rises by 1 and, under the new value, the bytes merge into the
line's slot or take a FREE slot, whose bytes outside the mask are zero bytes (the model's choice, log entry 35). The answer
is DONE, or it is held while an earlier READ of the line is in service: the entry of a held answer keeps its byte mask and no
data (R45), for which 64 zero bytes stand (the model's choice, log entry 33).
HOST_WRITE that takes no slot: outside ONLINE it is REFUSED; with an empty mask it is answered DONE, where no READ of
its line is in service, with no slot and no accept sequence; with every slot taken or the sequence bound of R56 holding,
and behind a waiting write to its line, it waits. -/
def Obligations.HostWriteIsAcceptedRefusedOrQueued : Prop :=
  (∀ (tag : BitVec 5) (line : BitVec 26) (mask : Flags64) (data : LineData) (s : State), s.Passes tag line.toNat →
    s.unit.state = .online → mask ≠ 0#64 → s.boundHolds = false → s.earlierWriteWaits line.toNat = false →
    ∀ (held : Bool), held = s.host.entries.any (fun e => e.line = line.toNat && e.inService) →
    (s.slot? line.toNat = none → s.buf.slots.length < 512 → exec (.hostWrite tag line mask data) s = .next (settle { s with
      out := if held then Outputs.none else oneResponse tag .done zeroLine
      host := { s.host with
        acceptSeq := s.host.acceptSeq + 1
        entries := s.host.entries ++
          if held then [⟨tag, .write, line.toNat, mask, zeroLine, .answerHeld⟩] else [] }
      buf := { s.buf with
        slots := s.buf.slots ++ [
          { line := line.toNat, draining := false, data := overlay mask data zeroLine, valid := mask,
            stamp := s.time.tick, oldest := s.host.acceptSeq + 1, newest := s.host.acceptSeq + 1, redirty := none,
            failedOnce := false }]
        pressure :=
          if s.buf.pressure = true then decide (s.time.active.lowWater < s.buf.slots.length + 1)
          else decide (s.time.active.highWater ≤ s.buf.slots.length + 1) } })) ∧
    (s.slot? line.toNat ≠ none → exec (.hostWrite tag line mask data) s = .next (settle { s with
      out := if held then Outputs.none else oneResponse tag .done zeroLine
      host := { s.host with
        acceptSeq := s.host.acceptSeq + 1
        entries := s.host.entries ++
          if held then [⟨tag, .write, line.toNat, mask, zeroLine, .answerHeld⟩] else [] }
      buf := { s.buf with
        slots := s.buf.slots.map fun sl =>
          if sl.line = line.toNat then
            { sl with
              data := overlay mask data sl.data, valid := sl.valid ||| mask, newest := s.host.acceptSeq + 1
              redirty :=
                if sl.draining = true ∧ sl.redirty = none then some ⟨s.time.tick, s.host.acceptSeq + 1⟩
                else sl.redirty }
          else sl } }))) ∧
  (∀ (tag : BitVec 5) (line : BitVec 26) (mask : Flags64) (data : LineData) (s : State), s.Passes tag line.toNat →
    (s.unit.state ≠ .online → exec (.hostWrite tag line mask data) s =
      .next (settle { s with out := oneResponse tag .refused zeroLine })) ∧
    (s.unit.state = .online → mask = 0#64 → s.earlierWriteWaits line.toNat = false →
      (∀ e ∈ s.host.entries, e.line = line.toNat → e.inService = false) →
      exec (.hostWrite tag line mask data) s = .next (settle { s with out := oneResponse tag .done zeroLine })) ∧
    (s.unit.state = .online →
      (s.earlierWriteWaits line.toNat = true ∨ (mask ≠ 0#64 ∧
        (s.boundHolds = true ∨ (s.slot? line.toNat = none ∧ 512 ≤ s.buf.slots.length)))) →
      exec (.hostWrite tag line mask data) s = .next (settle { s with
        out := Outputs.none
        host := { s.host with entries := s.host.entries ++ [⟨tag, .write, line.toNat, mask, data, .waiting⟩] } })))

/-- HOST_PERSIST, whose line is not examined: taken at once where no write waits, no earlier PERSIST waits to be taken
and the pending list has room, and then DONE or pending by its barrier, the accept sequence; PERSIST_WAITING otherwise.
PERSIST_TAKE takes the first PERSIST in PERSIST_WAITING, when the pending list has room and no write that arrived
before it waits: DONE where its barrier, the accept sequence, is satisfied, pending otherwise.
PERSIST_DONE answers the head of the pending list once its barrier is satisfied; FLUSH_DONE is raised and the flush
barrier removed once it is satisfied. In FAILED neither comes about, satisfied or not.
Zeros stand for the mask and data that the entry does not have (the model's choice, log entry 33). -/
def Obligations.PersistsAreTakenAndAnswered : Prop :=
  (∀ (tag : BitVec 5) (line : BitVec 26) (s : State), s.serves → s.occupied tag = false →
    ∀ (free : Prop), (free ↔ s.host.persists.length < 8 ∧
      ∀ e ∈ s.host.entries, e.waitingWrite = false ∧ e.standing ≠ .persistWaiting) →
    (free → s.satisfied s.host.acceptSeq = true → exec (.hostPersist tag line) s =
      .next (settle { s with out := oneResponse tag .done zeroLine })) ∧
    (free → s.satisfied s.host.acceptSeq = false → exec (.hostPersist tag line) s = .next (settle { s with
      out := Outputs.none
      host := { s.host with
        entries := s.host.entries ++ [⟨tag, .persist, line.toNat, 0#64, zeroLine, .persistPending⟩]
        persists := s.host.persists ++ [⟨tag, s.host.acceptSeq⟩] } })) ∧
    (¬free → exec (.hostPersist tag line) s = .next (settle { s with
      out := Outputs.none
      host := { s.host with
        entries := s.host.entries ++ [⟨tag, .persist, line.toNat, 0#64, zeroLine, .persistWaiting⟩] } }))) ∧
  (∀ (e : TagEntry) (s : State), s.serves → s.host.entries.find? (fun x => x.standing = .persistWaiting) = some e →
    s.host.persists.length < 8 →
    (∀ x ∈ s.host.entries.takeWhile (fun y => y.tag ≠ e.tag), x.waitingWrite = false) →
    (s.satisfied s.host.acceptSeq = true → exec .persistTake s = .next (settle { s with
      out := oneResponse e.tag .done zeroLine
      host := { s.host with entries := s.host.entries.filter fun x => x.tag ≠ e.tag } })) ∧
    (s.satisfied s.host.acceptSeq = false → exec .persistTake s = .next (settle { s with
      out := Outputs.none
      host := { s.host with
        entries := s.host.entries.map fun x => if x.tag = e.tag then { x with standing := .persistPending } else x
        persists := s.host.persists ++ [⟨e.tag, s.host.acceptSeq⟩] } }))) ∧
  (∀ s : State, s.unit.state ≠ .failed →
    (∀ p rest, s.host.persists = p :: rest → s.satisfied p.barrier = true → exec .persistDone s = .next (settle { s with
      out := oneResponse p.tag .done zeroLine
      host := { s.host with entries := s.host.entries.filter fun x => x.tag ≠ p.tag, persists := rest } })) ∧
    (∀ b, s.buf.flush = some b → s.satisfied b = true → exec .flushDone s = .next (settle { s with
      out := Outputs.none, buf := { s.buf with flush := none }, link := s.flagged .flushDone }))) ∧
  (∀ s : State, s.unit.state = .failed →
    exec .persistDone s = .next (settle { s with out := Outputs.none }) ∧
    exec .flushDone s = .next (settle { s with out := Outputs.none }))

/-- WAIT_QUEUE_TAKE gives a FREE slot to the oldest waiting write that is first on its line and can be accepted: it is
accepted under the next accept sequence and answered DONE. Here no other request of its line waits, no READ of its line
is in service and its line has no slot. The zero bytes outside its mask are the model's choice (log entry 35). -/
def Obligations.WaitQueueTakeAcceptsTheOldestWaitingWrite : Prop :=
  ∀ (e : TagEntry) (s : State), s.unit.state = .online → s.nextWaiting = some e → s.slot? e.line = none →
    (∀ x ∈ s.host.entries, x.line = e.line → x = e) →
    exec .waitQueueTake s = .next (settle { s with
      out := oneResponse e.tag .done zeroLine
      host := { s.host with
        acceptSeq := s.host.acceptSeq + 1
        entries := s.host.entries.filter fun x => x.tag ≠ e.tag }
      buf := { s.buf with
        slots := s.buf.slots ++ [
          { line := e.line, draining := false, data := overlay e.mask e.data zeroLine, valid := e.mask,
            stamp := s.time.tick, oldest := s.host.acceptSeq + 1, newest := s.host.acceptSeq + 1, redirty := none,
            failedOnce := false }]
        pressure :=
          if s.buf.pressure = true then decide (s.time.active.lowWater < s.buf.slots.length + 1)
          else decide (s.time.active.highWater ≤ s.buf.slots.length + 1) } })

/-! ### The media port (ch4) -/

/-- MEDIA_GRANT grants a waiting request: the one that waits, whose line has no operation in flight, or, with one place free
and others waiting, the one the arbiter chooses. It leaves the waiting requests for the free place (the lowest where
several are free is the model's choice, log entry 11), the place's grant count rises by 1, and its first attempt is sent
under the MediaTimeout now active. The promotion count of CHECKPOINT and of COPY, where a request of the class waits, rises
by 1 to at most 32 at the grant to another class; it is 0 after a grant to the class and where none waits (R70).
The arbiter's choice (R68, R69): a request is grantable where no operation to its line is in flight and no earlier request
to its line waits; the choice is the earliest grantable request of its class; of a promoted class that has one, CHECKPOINT
before COPY, and of the highest class otherwise; none only where none is grantable.
The requests of one happening join the waiting ones in the arrival order of R66: by class, highest first (a checkpoint write
and a record write of the one Journal Controller too, the model's choice, log entry 37); host reads in the arrival order of
their host requests; those of every other class as they were created. -/
def Obligations.GrantsFollowTheArbiter : Prop :=
  (∀ (r : MediaRequest) (p : Fin 8) (s : State), s.unit.state ≠ .reset → s.unit.state ≠ .failed →
    s.media.arriving = [] → freeMediaPlace s.media = some p →
    ∀ (id : AttemptId) (granted : Nat → Nat → State), id = ⟨p, s.media.grantCounts[p] + 1, false⟩ →
    (∀ checkpoint copy, granted checkpoint copy = { s with
      out := { Outputs.none with media := [{ id := id, kind := r.kind, physical := r.physical }] }
      media := { s.media with
        waiting := s.media.waiting.erase r
        inflight := s.media.inflight ++
          [{ id := id, request := r, sent := s.time.tick, limit := s.time.active.mediaTimeout }]
        grantCounts := s.media.grantCounts.set p (s.media.grantCounts[p] + 1)
        promoCheckpoint := checkpoint
        promoCopy := copy } }) →
    (s.media.waiting = [r] → (∀ op ∈ s.media.inflight, op.request.physical ≠ r.physical) →
      exec .mediaGrant s = .next (settle (granted 0 0))) ∧
    (∀ (count : MediaClass → Nat → Nat), chooseRequest s.media = some r →
      (∀ q, q ≠ p → ∃ op ∈ s.media.inflight, op.id.place = q) →
      (∀ c n, count c n =
        if r.cls ≠ c ∧ ∃ q ∈ s.media.waiting, q.cls = c then min 32 (n + 1) else 0) →
      exec .mediaGrant s =
        .next (settle (granted (count .checkpoint s.media.promoCheckpoint) (count .copy s.media.promoCopy))))) ∧
  (∀ m : MediaPort, (chooseRequest m = none ↔ grantables m = []) ∧
    grantables m = (m.waiting.zipIdx.filter fun (x : MediaRequest × Nat) => decide
      ((∀ op ∈ m.inflight, op.request.physical ≠ x.1.physical) ∧
        ∀ y ∈ m.waiting.take x.2, y.physical ≠ x.1.physical)).map (·.1)) ∧
  (∀ (m : MediaPort) (r : MediaRequest), chooseRequest m = some r →
    (grantables m).find? (fun q => q.cls = r.cls) = some r ∧
    (∀ op ∈ m.inflight, op.request.physical ≠ r.physical) ∧
    (m.promoCheckpoint = 32 → (∃ q ∈ grantables m, q.cls = .checkpoint) → r.cls = .checkpoint) ∧
    (m.promoCopy = 32 → (∃ q ∈ grantables m, q.cls = .copy) →
      (m.promoCheckpoint ≠ 32 ∨ ∀ q ∈ grantables m, q.cls ≠ .checkpoint) → r.cls = .copy) ∧
    ((m.promoCheckpoint ≠ 32 ∨ ∀ q ∈ grantables m, q.cls ≠ .checkpoint) →
      (m.promoCopy ≠ 32 ∨ ∀ q ∈ grantables m, q.cls ≠ .copy) →
      ∀ q ∈ grantables m, r.cls.code ≤ q.cls.code)) ∧
  (∀ (s : State) (rank : MediaRequest → Nat),
    (∀ r, rank r = s.host.entries.findIdx fun e => decide (r.requester = .host e.tag)) →
    ∃ joined, (joinWaiting s).media.waiting = s.media.waiting ++ joined ∧ (joinWaiting s).media.arriving = [] ∧
      joined.Perm s.media.arriving ∧ joined.Pairwise (fun a b => a.cls.code ≤ b.cls.code) ∧
      joined.Pairwise (fun a b => a.cls = .hostRead → b.cls = .hostRead → rank a ≤ rank b) ∧
      ∀ c, c ≠ .hostRead → (joined.filter fun r => r.cls = c) = s.media.arriving.filter fun r => r.cls = c)

/-- A completion that names no attempt in flight is discarded with no effect, as STALE_COMPLETION_DISCARD and by every
row of a completion: no count, no record, no requester sees it. -/
def Obligations.StaleCompletionsHaveNoEffect : Prop :=
  ∀ (id : AttemptId) (stored : Stored) (report : WriteReport) (s : State),
    s.inFlight? id = none →
    exec (.staleCompletionDiscard id) s = .next { s with out := Outputs.none } ∧
    (s.quiet = true →
      ∀ c ∈ [Instr.hostReadReturn id stored, .fillReadComplete id stored, .drainWriteComplete id report,
          .copyReadComplete id stored, .copyWriteComplete id report, .recordWriteComplete id report,
          .checkpointLineComplete id report, .formatOperationComplete id (.read stored),
          .formatOperationComplete id (.write report), .recoveryReadComplete id stored],
        exec c s = .next { s with out := Outputs.none })

/-- The decoder's verdict on the stored bits of a MEDIA READ (R64): CLEAN for a line's code word; CORRECTED(k), with k from
1 to 4 bits in error, data and check bits together, with the line of the code word so near; UNCORRECTABLE, with no data,
where no code word lies within 4 bits. So a medium that adds no errors reads CLEAN what was written, and no stored bits
lie within 4 bits of two lines' code words.
The code (R71): the check bytes of the zero line are zero, those of a sum of two lines are the sum of theirs, and an
all-zero stored line reads CLEAN; a MEDIA WRITE is sent with its data's check bytes, a MEDIA READ with none. Which code
of these properties the part uses is left free (log entry 9). -/
def Obligations.DecoderCorrectsUpToFourBits : Prop :=
  (∀ (d : LineData) (w : Stored),
    (errorsFrom d w = 0 → decodeStored w = .clean d ∧ (decodeStored w).delivered = some d) ∧
    (1 ≤ errorsFrom d w → errorsFrom d w ≤ 4 →
      decodeStored w = .corrected (errorsFrom d w) d ∧ (decodeStored w).delivered = some d) ∧
    (∀ e, errorsFrom d w ≤ 4 → errorsFrom e w ≤ 4 → d = e)) ∧
  (∀ w : Stored, (∀ d, 4 < errorsFrom d w) →
    decodeStored w = .uncorrectable ∧ (decodeStored w).delivered = none) ∧
  (∀ d : LineData, decodeStored (codeWord d) = .clean d) ∧
  (∀ b ∈ eccCheckBytes zeroLine, b = 0#8) ∧
  (∀ a b : LineData, eccCheckBytes (xorLine a b) = List.zipWith (· ^^^ ·) (eccCheckBytes a) (eccCheckBytes b)) ∧
  (∀ n, decodeStored { data := zeroLine, check := List.replicate n 0#8 } = .clean zeroLine) ∧
  (∀ a : Attempt, (a.kind = .read → a.checkBytes = []) ∧
    ∀ p, a.kind = .write p → (⟨p.bytes, a.checkBytes⟩ : Stored) = codeWord p.bytes)

/-- HOST_READ_RETURN by Table 3.5, in its order: DATA from a slot that is full, whatever was read; a wait for the loss of
the line's writes; POISON for a poisoned line; DATA with the slot's bytes laid over a CLEAN or CORRECTED line; POISON for an
UNCORRECTABLE one, whose frame is marked retire-wanted in every row (here where no request follows: outside ONLINE and
WRITE_PROTECTED, or with no owner). Counts and the error record follow R72 to R74, a corrected count staying below
RetireErrors. Directly after the answer leave the DONEs held behind it, those of later writes of its line, in arrival order;
those of other lines stay (R50). Here either no answer is held, or each waits for a READ and no other READ of the line is
in service. -/
def Obligations.HostReadReturnDecides : Prop :=
  ∀ (tag : BitVec 5) (op : InFlight) (stored : Stored) (e : TagEntry) (s : State), s.Reading op (.host tag) →
    s.tagEntry? tag = some e →
    ∀ (delivered : Option LineData) (map : MapController) (health : HealthMonitor) (media : MediaPort),
    ((∃ data, delivered = some data ∧ errorsFrom data stored = 0 ∧ map = s.map ∧ health = s.health ∧
        media = s.freed op) ∨
      (∃ data r, delivered = some data ∧ 1 ≤ errorsFrom data stored ∧ errorsFrom data stored ≤ 4 ∧
        s.frame? (op.request.physical / 64) = some r ∧ r.role = .mapped ∧
        r.corrected + 1 < s.time.active.retireErrors ∧ r.corrected < 65535 ∧
        map = { s.map with
          frames := s.map.frames.modify (op.request.physical / 64) fun x => { x with corrected := x.corrected + 1 } } ∧
        health = { s.health with correctedReads := satRaise max32 s.health.correctedReads } ∧
        media = { s.freed op with lastError := s.errorRecord op .corrected (errorsFrom data stored) }) ∨
      (∃ r, delivered = none ∧ (∀ d, 4 < errorsFrom d stored) ∧ s.map.loaded = true ∧
        s.frame? (op.request.physical / 64) = some r ∧ r.role = .mapped ∧ (s.running = false ∨ r.owner = none) ∧
        map = { s.map with
          frames := s.map.frames.modify (op.request.physical / 64) fun x => { x with wanted := true } } ∧
        health = { s.health with uncorrectableReads := satRaise max32 s.health.uncorrectableReads } ∧
        media = { s.freed op with lastError := s.errorRecord op .uncorrectable 0 })) →
    ∀ (partly : Prop), (partly ↔ ∀ sl, s.slot? e.line = some sl → sl.valid ≠ fullMask) →
    (partly → s.losing e.line = true → exec (.hostReadReturn op.id stored) s = .next (settle { s with
      out := Outputs.none
      host := { s.host with
        entries := s.host.entries.map fun x => if x.tag = tag then { x with standing := .reading true } else x }
      map := map, health := health, media := media })) ∧
    (∀ (rest held : List TagEntry), rest = s.host.entries.filter (fun x => x.tag ≠ tag) →
      held = rest.filter (fun x => x.standing = .answerHeld ∧ x.line = e.line) →
      (∀ x ∈ s.host.entries, x.standing ≠ .answerHeld) ∨ ((s.host.entries.map (·.tag)).Nodup ∧ s.HeldAnswersWait ∧
        ∀ x ∈ rest, x.line = e.line → x.inService = false) →
      ∀ (sends : HostCode → LineData → Prop), (∀ code data, sends code data ↔
        exec (.hostReadReturn op.id stored) s = .next (settle { s with
          out := { Outputs.none with host := ⟨tag, code, data⟩ :: held.map fun x => ⟨x.tag, .done, zeroLine⟩ }
          host := { s.host with
            entries := rest.filter fun x => ¬(x.standing = .answerHeld ∧ x.line = e.line) }
          map := map, health := health, media := media })) →
      (∀ sl, s.slot? e.line = some sl → sl.valid = fullMask → sends .data sl.data) ∧
      (partly → s.losing e.line = false → s.poisoned e.line = true → sends .poison zeroLine) ∧
      (∀ data laid, partly → s.losing e.line = false → s.poisoned e.line = false → delivered = some data →
        laid = (match s.slot? e.line with
          | some sl => overlay sl.valid sl.data data
          | none => data) → sends .data laid) ∧
      (partly → s.losing e.line = false → s.poisoned e.line = false → delivered = none → sends .poison zeroLine))

/-! ### Retire causes and the migration queue (ch5, ch6) -/

/-- A retire cause of a MAPPED frame marks it retire-wanted and, in ONLINE and WRITE_PROTECTED, sends a retire request of
its owner by Table 5.2: not queued when overdue, moving in COMMIT_WAIT or under an abort, or queued for retirement; a migration in QUIESCE
or COPY takes the reason; a LEVEL or MANUAL request moves to the retire class; a free queue takes it; a full one evicts
its newest back-class request, or refuses. A frame that is not MAPPED is left alone. -/
def Obligations.RetireCausesFollowTable52 : Prop :=
  ∀ (frame : Nat) (reason : Reason) (r : FrameRecord) (owner : Nat) (s t : State), s.frame? frame = some r →
    (r.role ≠ .mapped → retireCause frame reason s = s) ∧
    (s.map.loaded = true → r.role = .mapped → r.owner = some owner →
      t = { s with map := { s.map with frames := s.map.frames.modify frame fun x => { x with wanted := true } } } →
      (s.running = false → retireCause frame reason s = t) ∧
      (s.running = true → s.overdueFrame owner = true → retireCause frame reason s = t) ∧
      (s.running = true → s.overdueFrame owner = false →
        (∀ m, s.mig.current = some m → m.logical = owner → (m.phase = .commitWait ∨ m.abortPending = true) →
          retireCause frame reason s = t) ∧
        (∀ m, s.mig.current = some m → m.logical = owner → m.phase ≠ .commitWait → m.abortPending = false →
          retireCause frame reason s = { t with
            mig := { s.mig with current := some { m with reason := if m.reason.retire then m.reason else reason } } }) ∧
        (s.mig.isMoving owner = false → names owner s.mig.retireQueue = true → retireCause frame reason s = t) ∧
        (s.mig.isMoving owner = false → names owner s.mig.retireQueue = false → names owner s.mig.backQueue = true →
          retireCause frame reason s = { t with
            mig := { s.mig with
              retireQueue := s.mig.retireQueue ++ [⟨owner, reason⟩]
              backQueue := s.mig.backQueue.filter fun x => x.logical ≠ owner } }) ∧
        (s.mig.isMoving owner = false → s.mig.isQueued owner = false → s.mig.queued < 8 →
          retireCause frame reason s = { t with
            mig := { s.mig with retireQueue := s.mig.retireQueue ++ [⟨owner, reason⟩] } }) ∧
        (∀ rest last, s.mig.isMoving owner = false → s.mig.isQueued owner = false → 8 ≤ s.mig.queued →
          s.mig.backQueue = rest ++ [last] →
          retireCause frame reason s = { t with
            mig := { s.mig with
              retireQueue := s.mig.retireQueue ++ [⟨owner, reason⟩]
              backQueue := rest
              lastResult := some ⟨last.logical, last.reason, .evicted, s.time.tick⟩ }
            link := if last.reason = .manual then s.flagged .migrationAborted else s.link }) ∧
        (s.mig.isMoving owner = false → s.mig.isQueued owner = false → 8 ≤ s.mig.queued → s.mig.backQueue = [] →
          retireCause frame reason s = t)))

/-- The re-queuing of the wear sweep (R113). Its frames are the MAPPED, retire-wanted, not retire-overdue ones in ascending
order; with none, or with eight retire requests queued, nothing changes. A frame whose owner is queued or moving is passed
over. Offered frames join the retire class in that order while the queue has room, each for RETIRE_PROGRAM where its entry
carries the fail mark, else for RETIRE_WEAR at or above RetireWear, else for RETIRE_ERROR; with the queue full the newest
back-class request is evicted for one. -/
def Obligations.RequeuingOffersWantedFramesInOrder : Prop :=
  ∀ s : State,
    s.wantedFrames.Pairwise (· < ·) ∧
    (∀ f, f ∈ s.wantedFrames ↔
      ∃ r, s.frame? f = some r ∧ r.role = .mapped ∧ r.wanted = true ∧ r.overdue = false) ∧
    (s.wantedFrames = [] ∨ (8 ≤ s.mig.queued ∧ s.mig.backQueue = []) → requeue s = s) ∧
    ((∀ f ∈ s.wantedFrames, ∃ r l, s.frame? f = some r ∧ r.owner = some l ∧
      (s.mig.isQueued l = true ∨ s.mig.isMoving l = true)) → requeue s = s) ∧
    (∀ (ownerOf : Nat → Nat) (reasonOf : Nat → Reason), s.running = true →
      (∀ f ∈ s.wantedFrames, ∃ r e, s.frame? f = some r ∧ r.owner = some (ownerOf f) ∧
        s.entry? (ownerOf f) = some e ∧ e.frame = f ∧ s.mig.isQueued (ownerOf f) = false ∧
        s.mig.isMoving (ownerOf f) = false ∧
        reasonOf f = (if e.failMark = true then .retireProgram else if s.retireWear ≤ r.wear then .retireWear
          else .retireError)) →
      (s.mig.queued + s.wantedFrames.length ≤ 8 → requeue s = { s with
        mig := { s.mig with
          retireQueue := s.mig.retireQueue ++ s.wantedFrames.map fun f => ⟨ownerOf f, reasonOf f⟩ } }) ∧
      (∀ f rest last, s.wantedFrames = [f] → 8 ≤ s.mig.queued → s.mig.backQueue = rest ++ [last] →
        requeue s = { s with
          mig := { s.mig with
            retireQueue := s.mig.retireQueue ++ [⟨ownerOf f, reasonOf f⟩]
            backQueue := rest
            lastResult := some ⟨last.logical, last.reason, .evicted, s.time.tick⟩ }
          link := if last.reason = .manual then s.flagged .migrationAborted else s.link }))

/-! ### Drains (ch2) -/

/-- FILL_READ_COMPLETE: with the data read CLEAN the drain's line is its snapshot laid over the data, and its MEDIA WRITE
is requested in phase WRITE. An UNCORRECTABLE fill of an unpoisoned line, here in CLOSING or DRAIN_LOCK, lays the
snapshot over zeros, hands over a POISON_SET record and waits in POISON_WAIT, the frame marked retire-wanted. -/
def Obligations.FillReadFormsTheLine : Prop :=
  ∀ (p : Fin 4) (op : InFlight) (d : Drain) (stored : Stored) (s : State), s.Reading op (.drain p) →
    s.drain? p = some d → s.unit.state ≠ .reset → s.unit.state ≠ .failed →
    (∀ data, errorsFrom data stored = 0 → exec (.fillReadComplete op.id stored) s = .next (settle { s with
      out := Outputs.none
      buf := { s.buf with
        drains := s.buf.drains.map fun x =>
          if x.place = p then { x with formed := overlay d.snapMask d.snapshot data, phase := .write } else x }
      media := { s.freed op with
        arriving := s.media.arriving ++
          [⟨.drain, .drain p, .write (.data (overlay d.snapMask d.snapshot data)), d.physical⟩] } })) ∧
    (∀ r, (∀ data, 4 < errorsFrom data stored) → s.poisoned d.line = false →
      (s.unit.state = .closing ∨ s.unit.state = .drainLock) → s.map.loaded = true →
      s.frame? (d.physical / 64) = some r → r.role = .mapped → s.jrn.waiters = [] → s.jrn.staging.length < 16 →
      exec (.fillReadComplete op.id stored) s = .next (settle { s with
        out := Outputs.none
        buf := { s.buf with
          drains := s.buf.drains.map fun x =>
            if x.place = p then { x with formed := overlay d.snapMask d.snapshot zeroLine, phase := .poisonWait } else x }
        map := { s.map with
          frames := s.map.frames.modify (d.physical / 64) fun x => { x with wanted := true } }
        health := { s.health with uncorrectableReads := satRaise max32 s.health.uncorrectableReads }
        media := { s.freed op with lastError := s.errorRecord op .uncorrectable 0 }
        jrn := { s.jrn with staging := s.jrn.staging ++ [⟨.drain p, .poisonSet d.line, none⟩] } }))

/-- DRAIN_WRITE_COMPLETE stored, of a line whose frame is not worn out: the frame's wear and Drains rise by 1, and the slot
becomes FREE, or DIRTY with its re-dirty mark's tick and sequence. While the line's frame is in COMMIT_WAIT the line's late
flag is set and the line is to be copied again (R101). The drain ends. The full write of a line poisoned at issue clears
the poison flag, in the pending poison mask too while its frame is in COMMIT_WAIT, and hands over a POISON_CLEAR record;
with the staging queue full the drain keeps its place in CLEAR_WAIT, the record waiting (R37), and JOURNAL_STALL is raised
where no creator waited (R122). -/
def Obligations.DrainWriteStoredEndsTheDrain : Prop :=
  ∀ (p : Fin 4) (op : InFlight) (d : Drain) (sl : Slot) (s : State), s.Writing op (.drain p) → s.drain? p = some d →
    s.slot? d.line = some sl → op.request.physical = d.physical → s.NotWornOut (d.physical / 64) →
    ∀ (i : Nat) (bit : Flags64) (current : Option Migration) (buf : AbsorbBuffer) (health : HealthMonitor),
    i = d.line % 64 → bit = 1#64 <<< i →
    current = (s.mig.current.map fun m => if m.phase = .commitWait ∧ m.logical = d.line / 64 then
        { m with
          lateMask := m.lateMask ||| bit, lateSettled := m.lateSettled &&& ~~~bit
          lateCopy := m.lateCopy.map fun c => if c.line = i then { c with redrained := true } else c }
      else m) →
    buf = (match sl.redirty with
      | none =>
        { s.buf with
          slots := s.buf.slots.filter fun x => x.line ≠ d.line
          pressure :=
            if s.buf.pressure = true then
              decide (s.time.active.lowWater < (s.buf.slots.filter fun x => x.line ≠ d.line).length)
            else decide (s.time.active.highWater ≤ (s.buf.slots.filter fun x => x.line ≠ d.line).length) }
      | some mark =>
        { s.buf with
          slots := s.buf.slots.map fun x =>
            if x.line = d.line then
              { x with
                draining := false, stamp := mark.tick, oldest := mark.seq, redirty := none, failedOnce := false }
            else x }) →
    health = { s.health with drains := satRaise max32 s.health.drains } →
    (d.poisoned = false ∨ d.snapMask ≠ fullMask → exec (.drainWriteComplete op.id .stored) s = .next (settle { s with
      out := Outputs.none
      map := s.worn (d.physical / 64)
      mig := { s.mig with current := current }
      health := health
      media := s.freed op
      buf := { buf with drains := s.buf.drains.filter fun x => x.place ≠ p } })) ∧
    (d.poisoned = true → d.snapMask = fullMask → ∀ u : State, u = { s with
        out := Outputs.none
        map := { s.worn (d.physical / 64) with
          entries := s.map.entries.modify (d.line / 64) fun x => { x with poison := x.poison &&& ~~~bit } }
        mig := { s.mig with
          current := current.map fun m => if m.phase = .commitWait ∧ m.logical = d.line / 64 then
              { m with pendingPoison := m.pendingPoison &&& ~~~bit }
            else m }
        health := health
        media := s.freed op } →
      (s.jrn.waiters = [] → s.jrn.staging.length < 16 →
        exec (.drainWriteComplete op.id .stored) s = .next (settle { u with
          buf := { buf with drains := s.buf.drains.filter fun x => x.place ≠ p }
          jrn := { s.jrn with staging := s.jrn.staging ++ [⟨.drain p, .poisonClear d.line, none⟩] } })) ∧
      (s.jrn.waiters ≠ [] ∨ 16 ≤ s.jrn.staging.length → s.creatorWaits (.drain p) = false →
        exec (.drainWriteComplete op.id .stored) s = .next (settle { u with
          buf := { buf with
            drains := s.buf.drains.map fun x => if x.place = p then { x with phase := .clearWait } else x }
          jrn := { s.jrn with waiters := s.jrn.waiters ++ [⟨.drain p, [.poisonClear d.line]⟩] }
          link := if s.jrn.waiters = [] then s.flagged .journalStall else s.link })))

/-- DRAIN_WRITE_COMPLETE failed to program: wear and ProgramFails rise, the error is recorded and the MAPPED frame is marked
retire-wanted. For the first time of the slot it is DIRTY again with its old stamp and failed once set, and the drain ends.
In DRAIN_LOCK and CLOSING no fail mark is placed; in ONLINE and WRITE_PROTECTED the owner is queued for RETIRE_PROGRAM,
here with room, and the fail mark is placed.
For the second time of a slot, in DRAIN_LOCK or CLOSING: where the line is poisoned already the writes held are lost,
LostWrites rises, POISON_CREATED is raised, the slot becomes FREE and the drain ends, all in one happening; where it is not,
the slot's bytes and mask are emptied, it stays DRAINING, and the drain waits in LOSING for a POISON_SET record. -/
def Obligations.ProgramFailOfADrainReturnsOrLosesTheSlot : Prop :=
  ∀ (p : Fin 4) (op : InFlight) (d : Drain) (sl : Slot) (r : FrameRecord) (s : State), s.Writing op (.drain p) →
    s.drain? p = some d → s.slot? d.line = some sl → s.commitWaitOf (d.line / 64) = false →
    op.request.physical = d.physical → s.frame? (d.physical / 64) = some r → r.role = .mapped → s.map.loaded = true →
    ∀ (u : State) (stopping : Prop), (stopping ↔ s.unit.state = .drainLock ∨ s.unit.state = .closing) → u = { s with
      out := Outputs.none
      map := { s.map with
        frames := s.map.frames.modify (d.physical / 64) fun x =>
          { x with wear := satRaise max32 x.wear, wanted := true } }
      health := { s.health with programFails := satRaise max32 s.health.programFails }
      media := { s.freed op with lastError := s.errorRecord op .programFail 0 } } →
    (∀ buf, sl.failedOnce = false → buf = { s.buf with
        drains := s.buf.drains.filter fun x => x.place ≠ p
        slots := s.buf.slots.map fun x =>
          if x.line = d.line then { x with draining := false, failedOnce := true, redirty := none } else x } →
      (stopping → exec (.drainWriteComplete op.id .programFail) s = .next (settle { u with buf := buf })) ∧
      (∀ owner, s.running = true → r.overdue = false → r.owner = some owner → s.overdueFrame owner = false →
        s.mig.isMoving owner = false → s.mig.isQueued owner = false → s.mig.queued < 8 →
        exec (.drainWriteComplete op.id .programFail) s = .next (settle { u with
          buf := buf
          map := { u.map with
            entries := s.map.entries.modify (d.line / 64) fun x => { x with failMark := true } }
          mig := { s.mig with retireQueue := s.mig.retireQueue ++ [⟨owner, .retireProgram⟩] } }))) ∧
    (stopping → sl.failedOnce = true → s.poisoned d.line = true →
      exec (.drainWriteComplete op.id .programFail) s = .next (settle { u with
        health := { u.health with lostWrites := satRaise max32 s.health.lostWrites }
        link := s.flagged .poisonCreated
        buf := { s.buf with
          drains := s.buf.drains.filter fun x => x.place ≠ p
          slots := s.buf.slots.filter fun x => x.line ≠ d.line
          pressure :=
            if s.buf.pressure = true then
              decide (s.time.active.lowWater < (s.buf.slots.filter fun x => x.line ≠ d.line).length)
            else decide (s.time.active.highWater ≤ (s.buf.slots.filter fun x => x.line ≠ d.line).length) } })) ∧
    (stopping → sl.failedOnce = true → s.poisoned d.line = false → s.jrn.waiters = [] → s.jrn.staging.length < 16 →
      exec (.drainWriteComplete op.id .programFail) s = .next (settle { u with
        buf := { s.buf with
          drains := s.buf.drains.map fun x => if x.place = p then { x with phase := .losing } else x
          slots := s.buf.slots.map fun x =>
            if x.line = d.line then { x with data := zeroLine, valid := 0#64, redirty := none } else x }
        jrn := { s.jrn with staging := s.jrn.staging ++ [⟨.drain p, .poisonSet d.line, none⟩] } }))

/-! ### Migration (ch5) -/

/-- MIGRATION_TAKE takes the head of the queue, the retire class before the back class, in ONLINE and WRITE_PROTECTED
with the engine IDLE: the migration mark is placed, the source is the frame the entry names, and QUIESCE begins; the copy
index 0 and the empty pending poison mask that it shows there are the model's choice (log entry 30), and so is the fate SPARE until the copy's end fixes it (log entry 41).
QUIESCE_END takes the pool head as TARGET for the logical frame and starts the copy of line 0: a read of the source,
or the write of zeros where the line is poisoned. With the pool empty a retire migration marks its source retire-overdue,
sets the latch and ends OVERDUE, and a unit that was ONLINE is WRITE_PROTECTED and answers every waiting write REFUSED in
order of arrival, here with no READ waiting behind one (R19, R48, R90); a LEVEL or MANUAL one ends NO_SPARE and is counted as
aborted. -/
def Obligations.MigrationIsTakenAndAsksForATarget : Prop :=
  (∀ (q : MigRequest) (e : MapEntry) (s : State) (rest : List MigRequest),
    (s.unit.state = .online ∨ s.unit.state = .writeProtected) → s.mig.current = none → s.entry? q.logical = some e →
    (s.mig.retireQueue = q :: rest ∨ (s.mig.retireQueue = [] ∧ s.mig.backQueue = q :: rest)) →
    exec .migrationTake s = .next (settle { s with
      out := Outputs.none
      map := { s.map with
        entries := s.map.entries.modify q.logical fun x => { x with migrationMark := true } }
      mig := { s.mig with
        retireQueue := s.mig.retireQueue.tail
        backQueue := if s.mig.retireQueue = [] then rest else s.mig.backQueue
        current := some
          { phase := .quiesce, logical := q.logical, reason := q.reason, source := e.frame, target := none,
            copyIndex := 0, pendingPoison := 0#64, lateMask := 0#64, lateFail := none, lateCopy := none,
            lateAwaited := [], lateSettled := 0#64, abortPending := false, fate := .spare,
            commitDurable := false } } })) ∧
  (∀ (m : Migration) (e : MapEntry) (s : State), s.engineRuns = true → s.mig.current = some m → m.phase = .quiesce →
    m.abortPending = false → s.frameDraining m.logical = false → s.entry? m.logical = some e →
    (∀ head rest, s.map.pool = head :: rest → exec .quiesceEnd s = .next (settle { s with
      out := Outputs.none
      map := { s.map with
        pool := rest
        frames := s.map.frames.modify head fun x => { x with role := .target, owner := some m.logical } }
      mig := { s.mig with
        current := some { m with phase := .copy, target := some head, copyIndex := 0, pendingPoison := e.poison } }
      media := { s.media with
        arriving := s.media.arriving ++
          [if e.poison.getLsbD 0 then ⟨.copy, .engine, .write (.data zeroLine), head * 64⟩
            else ⟨.copy, .engine, .read, m.source * 64⟩] } })) ∧
    (s.map.pool = [] → m.reason.retire = false → exec .quiesceEnd s = .next (settle { s with
      out := Outputs.none
      map := { s.map with
        entries := s.map.entries.modify m.logical fun x => { x with migrationMark := false } }
      mig := { s.mig with current := none, lastResult := some ⟨m.logical, m.reason, .noSpare, s.time.tick⟩ }
      health := { s.health with migrationsAborted := satRaise max32 s.health.migrationsAborted }
      link := s.flagged .migrationAborted })) ∧
    (s.map.pool = [] → m.reason.retire = true → ∀ u : State, u = { s with
        out := Outputs.none
        map := { s.map with
          latch := true
          frames := s.map.frames.modify m.source fun x => { x with overdue := true }
          entries := s.map.entries.modify m.logical fun x => { x with migrationMark := false, failMark := false } }
        mig := { s.mig with current := none, lastResult := some ⟨m.logical, m.reason, .overdue, s.time.tick⟩ } } →
      (s.unit.state ≠ .online →
        exec .quiesceEnd s = .next (settle { u with link := s.flagged .sparesExhausted })) ∧
      (s.unit.state = .online → (∀ x ∈ s.host.entries, x.standing ≠ .waiting) →
        exec .quiesceEnd s = .next (settle { u with
          unit := { s.unit with state := .writeProtected }
          link := { s.link with
            flags := s.link.flags ||| Event.stateChanged.flag ||| Event.sparesExhausted.flag } })) ∧
      (s.unit.state = .online → (s.host.entries.map (·.tag)).Nodup →
        (∀ x ∈ s.host.entries, x.standing = .waiting → x.kind = .write) →
        exec .quiesceEnd s = .next (settle { u with
          out := { Outputs.none with
            host := (s.host.entries.filter fun x => x.standing = .waiting).map fun x => ⟨x.tag, .refused, zeroLine⟩ }
          host := { s.host with entries := s.host.entries.filter fun x => x.standing ≠ .waiting }
          unit := { s.unit with state := .writeProtected }
          link := { s.link with
            flags := s.link.flags ||| Event.stateChanged.flag ||| Event.sparesExhausted.flag } }))))

/-- COPY_READ_COMPLETE in COPY, no abort pending: the data read CLEAN, or CORRECTED with its counts (here below RetireErrors),
is written to the target line; for an UNCORRECTABLE line 64 zero bytes are written, its pending flag is set and the MAPPED
source, here in CLOSING, is marked retire-wanted.
COPY_WRITE_COMPLETE stored in COPY, no abort pending: the target's wear rises and the next line's copy starts; after
line 63 the fate is fixed, MOVE_COMMIT is handed over with the pending poison mask, and COMMIT_WAIT begins. Failed to
program, it makes the target RETIRED, hands over SPARE_RETIRE, and the copy begins again from line 0 to the next pool
head, the pending poison mask taken anew (R94). -/
def Obligations.CopyOutcomesCarryTheMigration : Prop :=
  (∀ (m : Migration) (target : Nat) (op : InFlight) (stored : Stored) (s : State), s.Reading op .engine →
    s.mig.current = some m → m.phase = .copy → m.abortPending = false → m.target = some target →
    s.unit.state ≠ .reset → s.unit.state ≠ .failed →
    (∀ data, errorsFrom data stored = 0 → exec (.copyReadComplete op.id stored) s = .next (settle { s with
      out := Outputs.none
      media := { s.freed op with
        arriving := s.media.arriving ++
          [⟨.copy, .engine, .write (.data data), target * 64 + m.copyIndex⟩] } })) ∧
    (∀ data r, 1 ≤ errorsFrom data stored → errorsFrom data stored ≤ 4 →
      s.frame? (op.request.physical / 64) = some r → r.role = .mapped → r.corrected + 1 < s.time.active.retireErrors →
      r.corrected < 65535 → exec (.copyReadComplete op.id stored) s = .next (settle { s with
        out := Outputs.none
        map := { s.map with
          frames := s.map.frames.modify (op.request.physical / 64) fun x => { x with corrected := x.corrected + 1 } }
        health := { s.health with correctedReads := satRaise max32 s.health.correctedReads }
        media := { s.freed op with
          lastError := s.errorRecord op .corrected (errorsFrom data stored)
          arriving := s.media.arriving ++
            [⟨.copy, .engine, .write (.data data), target * 64 + m.copyIndex⟩] } })) ∧
    (∀ r, (∀ data, 4 < errorsFrom data stored) → s.unit.state = .closing → s.map.loaded = true →
      s.frame? m.source = some r → r.role = .mapped →
      exec (.copyReadComplete op.id stored) s = .next (settle { s with
        out := Outputs.none
        map := { s.map with frames := s.map.frames.modify m.source fun x => { x with wanted := true } }
        mig := { s.mig with current := some { m with pendingPoison := m.pendingPoison ||| 1#64 <<< m.copyIndex } }
        health := { s.health with uncorrectableReads := satRaise max32 s.health.uncorrectableReads }
        media := { s.freed op with
          lastError := s.errorRecord op .uncorrectable 0
          arriving := s.media.arriving ++
            [⟨.copy, .engine, .write (.data zeroLine), target * 64 + m.copyIndex⟩] } }))) ∧
  (∀ (m : Migration) (target : Nat) (op : InFlight) (s : State), s.Writing op .engine → s.mig.current = some m →
    m.phase = .copy → m.abortPending = false → m.target = some target → s.unit.state ≠ .reset →
    s.unit.state ≠ .failed →
    (m.copyIndex < 63 → exec (.copyWriteComplete op.id .stored) s = .next (settle { s with
      out := Outputs.none
      map := s.worn (op.request.physical / 64)
      mig := { s.mig with current := some { m with copyIndex := m.copyIndex + 1 } }
      media := { s.freed op with
        arriving := s.media.arriving ++
          [if m.pendingPoison.getLsbD (m.copyIndex + 1) then
              ⟨.copy, .engine, .write (.data zeroLine), target * 64 + (m.copyIndex + 1)⟩
            else ⟨.copy, .engine, .read, m.source * 64 + (m.copyIndex + 1)⟩] } })) ∧
    (∀ r fate, m.copyIndex = 63 → s.frame? m.source = some r → m.source ≠ op.request.physical / 64 →
      s.jrn.waiters = [] → s.jrn.staging.length < 16 →
      fate = (if m.reason.retire = true ∨ s.retireWear ≤ r.wear ∨ s.time.active.retireErrors ≤ r.corrected then
        Fate.retired else Fate.spare) →
      exec (.copyWriteComplete op.id .stored) s = .next (settle { s with
        out := Outputs.none
        map := s.worn (op.request.physical / 64)
        mig := { s.mig with current := some { m with phase := .commitWait, fate := fate } }
        media := s.freed op
        jrn := { s.jrn with
          staging := s.jrn.staging ++
            [⟨.engine, .moveCommit m.logical target m.source fate m.pendingPoison, none⟩] } })) ∧
    (∀ e head rest, s.entry? m.logical = some e → s.map.pool = head :: rest → s.jrn.waiters = [] →
      s.jrn.staging.length < 16 → exec (.copyWriteComplete op.id .programFail) s = .next (settle { s with
        out := Outputs.none
        map := { s.map with
          pool := rest
          frames := ((s.worn (op.request.physical / 64)).frames.modify target fun x =>
            { x with role := .retired, owner := none }).modify head fun x =>
              { x with role := .target, owner := some m.logical } }
        mig := { s.mig with
          current := some { m with target := some head, copyIndex := 0, pendingPoison := e.poison } }
        health := { s.health with programFails := satRaise max32 s.health.programFails }
        media := { s.freed op with
          lastError := s.errorRecord op .programFail 0
          arriving := s.media.arriving ++
            [if e.poison.getLsbD 0 then ⟨.copy, .engine, .write (.data zeroLine), head * 64⟩
              else ⟨.copy, .engine, .read, m.source * 64⟩] }
        jrn := { s.jrn with staging := s.jrn.staging ++ [⟨.engine, .spareRetire target, none⟩] } })))

/-- MIGRATION_SWITCH, once MOVE_COMMIT is durable, no late line is left and no drain of the frame is in progress: the
entry names the target with the pending poison mask and no hold, the target is MAPPED, the result is recorded and counted
for its reason, and MIGRATION_DONE is raised. With fate RETIRED the source is RETIRED; with fate SPARE it joins the pool
at its ordered place. Here the new frame stands under both thresholds. -/
def Obligations.SwitchMovesTheFrame : Prop :=
  ∀ (m : Migration) (target : Nat) (r : FrameRecord) (s : State), s.working = true → s.mig.current = some m →
    m.phase = .commitWait → m.commitDurable = true → m.lateMask = 0#64 → s.frameDraining m.logical = false →
    m.target = some target → m.source ≠ target →
    s.frame? target = some r → r.wear < s.retireWear → r.corrected < s.time.active.retireErrors →
    ∀ (u : State) (role : Role), u = { s with
      out := Outputs.none
      map := { s.map with
        entries := s.map.entries.modify m.logical fun _ => ⟨target, m.pendingPoison, false, false⟩
        frames := (s.map.frames.modify target fun x => { x with role := .mapped }).modify m.source fun x =>
          { x with role := role, owner := none, wanted := false } }
      mig := { s.mig with current := none, lastResult := some ⟨m.logical, m.reason, .committed, s.time.tick⟩ }
      health :=
        match m.reason with
        | .level => { s.health with migrationsLevel := satRaise max32 s.health.migrationsLevel }
        | .manual => { s.health with migrationsManual := satRaise max32 s.health.migrationsManual }
        | _ => { s.health with migrationsRetire := satRaise max32 s.health.migrationsRetire }
      link := s.flagged .migrationDone } →
    (m.fate = .retired → role = .retired → exec .migrationSwitch s = .next (settle u)) ∧
    (m.fate = .spare → role = .spare → exec .migrationSwitch s = .next (settle { u with
      map := { u.map with pool := insertPool u.map.frames m.source s.map.pool } }))

/-- LATE_COPY_START copies a late line again, the lowest of those whose flag does not wait for its POISON_SET records alone
(which late line waits so is the model's choice, log entry 13): a read of the source, or zeros where its pending flag is set.
A late copy's read: CLEAN, its data are written; UNCORRECTABLE, here in DRAIN_LOCK, where alone late lines arise, zeros, with
the pending flag set, the source retire-wanted, and POISON_SET handed over. Its write stored clears the late flag, but for a
line drained again meanwhile, and for one of which a record is awaited. A first program fail keeps the flag and sets the late
fail; each further one hands over POISON_SET.
ABORT_COMPLETE, with no operation of the engine in flight: a target held returns to SPARE at its ordered place in the pool
(R15), the marks are removed (the fail mark stays in ONLINE on a retire-wanted source), the abort is counted, recorded and
raised, and the engine is IDLE. -/
def Obligations.LateCopiesAndAbortsEnd : Prop :=
  (∀ (m : Migration) (target i : Nat) (s : State), s.working = true → s.mig.current = some m → m.phase = .commitWait →
    s.frameDraining m.logical = false → m.lateCopy = none → m.target = some target →
    i < 64 → m.lateMask.getLsbD i = true → m.lateSettled.getLsbD i = false →
    (∀ j, j < i → m.lateMask.getLsbD j = true → m.lateSettled.getLsbD j = true) →
    exec .lateCopyStart s = .next (settle { s with
      out := Outputs.none
      mig := { s.mig with current := some { m with lateCopy := some ⟨i, false⟩ } }
      media := { s.media with
        arriving := s.media.arriving ++
          [if m.pendingPoison.getLsbD i then ⟨.copy, .engine, .write (.data zeroLine), target * 64 + i⟩
            else ⟨.copy, .engine, .read, m.source * 64 + i⟩] } })) ∧
  (∀ (m : Migration) (target : Nat) (c : LateCopy) (bit : Flags64) (op : InFlight) (s : State),
    s.mig.current = some m → m.phase = .commitWait → m.target = some target → m.lateCopy = some c →
    bit = 1#64 <<< c.line → s.unit.state ≠ .reset → s.unit.state ≠ .failed →
    (∀ stored, s.Reading op .engine →
      (∀ data, errorsFrom data stored = 0 → exec (.copyReadComplete op.id stored) s = .next (settle { s with
        out := Outputs.none
        media := { s.freed op with
          arriving := s.media.arriving ++ [⟨.copy, .engine, .write (.data data), target * 64 + c.line⟩] } })) ∧
      (∀ r, (∀ data, 4 < errorsFrom data stored) → s.unit.state = .drainLock → s.map.loaded = true →
        s.frame? m.source = some r → r.role = .mapped → s.jrn.waiters = [] → s.jrn.staging.length < 16 →
        exec (.copyReadComplete op.id stored) s = .next (settle { s with
          out := Outputs.none
          map := { s.map with frames := s.map.frames.modify m.source fun x => { x with wanted := true } }
          mig := { s.mig with
            current := some { m with
              pendingPoison := m.pendingPoison ||| bit, lateAwaited := m.lateAwaited ++ [c.line] } }
          health := { s.health with uncorrectableReads := satRaise max32 s.health.uncorrectableReads }
          media := { s.freed op with
            lastError := s.errorRecord op .uncorrectable 0
            arriving := s.media.arriving ++ [⟨.copy, .engine, .write (.data zeroLine), target * 64 + c.line⟩] }
          jrn := { s.jrn with
            staging := s.jrn.staging ++ [⟨.lateCopy c.line, .poisonSet (m.logical * 64 + c.line), none⟩] } }))) ∧
    (s.Writing op .engine → ∀ (done : Migration → State), (∀ x, done x = { s with
        out := Outputs.none
        map := s.worn (op.request.physical / 64)
        mig := { s.mig with current := some { x with lateCopy := none } }
        media := s.freed op }) →
      (c.redrained = true → exec (.copyWriteComplete op.id .stored) s = .next (settle (done m))) ∧
      (c.redrained = false → c.line ∈ m.lateAwaited →
        exec (.copyWriteComplete op.id .stored) s =
          .next (settle (done { m with lateSettled := m.lateSettled ||| bit }))) ∧
      (c.redrained = false → c.line ∉ m.lateAwaited →
        exec (.copyWriteComplete op.id .stored) s = .next (settle (done { m with
          lateMask := m.lateMask &&& ~~~bit, lateSettled := m.lateSettled &&& ~~~bit
          lateFail := if m.lateFail = some c.line then none else m.lateFail }))) ∧
      (∀ (failed : Migration → State), (∀ x, failed x = { done x with
          health := { s.health with programFails := satRaise max32 s.health.programFails }
          media := { s.freed op with lastError := s.errorRecord op .programFail 0 } }) →
        (m.lateFail ≠ some c.line → exec (.copyWriteComplete op.id .programFail) s =
          .next (settle (failed { m with lateFail := some c.line }))) ∧
        (m.lateFail = some c.line → s.jrn.waiters = [] → s.jrn.staging.length < 16 →
          exec (.copyWriteComplete op.id .programFail) s = .next (settle {
            failed { m with
                lateAwaited := m.lateAwaited ++ [c.line]
                lateSettled := if c.redrained = true then m.lateSettled else m.lateSettled ||| bit } with
              jrn := { s.jrn with
                staging := s.jrn.staging ++ [⟨.lateCopy c.line, .poisonSet (m.logical * 64 + c.line), none⟩] } }))))) ∧
  (∀ (m : Migration) (s : State), s.working = true → s.mig.current = some m → m.phase ≠ .commitWait →
    m.abortPending = true → s.engineInFlight = false →
    ∀ (keeps : Bool), keeps = (s.unit.state = .online && ((s.frame? m.source).map (·.wanted)).getD false) →
    ∀ (done : MapController → State), (∀ map, done map = { s with
      out := Outputs.none
      map := { map with
        entries := s.map.entries.modify m.logical fun x =>
          { x with migrationMark := false, failMark := x.failMark && keeps } }
      mig := { s.mig with current := none, lastResult := some ⟨m.logical, m.reason, .aborted, s.time.tick⟩ }
      health := { s.health with migrationsAborted := satRaise max32 s.health.migrationsAborted }
      link := s.flagged .migrationAborted }) →
    (m.target = none → exec .abortComplete s = .next (settle (done s.map))) ∧
    (∀ target r before after, m.target = some target → s.frame? target = some r → r.role = .target →
      s.map.pool = before ++ after →
      (∀ f ∈ before, wearIn s.map.frames f < r.wear ∨ (wearIn s.map.frames f = r.wear ∧ f < target)) →
      (∀ f ∈ after, r.wear < wearIn s.map.frames f ∨ (r.wear = wearIn s.map.frames f ∧ target < f)) →
      exec .abortComplete s = .next (settle (done { s.map with
        frames := s.map.frames.modify target fun x => { x with role := .spare, owner := none }
        pool := before ++ target :: after }))))

/-! ### The journal and the checkpoints (ch7) -/

/-- RECORD_WRITE_ISSUE: the record at the head of the staging queue is written into the ring's head slot under its own
sequence number, or the next one at its first issue; the head advances, the ring is full when it comes round to the tail
(R126), and a FENCE_SET issued for the first time moves the journaled fence. Where used then stands at 1,536 or more in
ONLINE, WRITE_PROTECTED or CLOSING, a checkpoint starts, not clean, unless one is in progress (R128).
CREATOR_JOIN_QUEUE: with a place in the staging queue the first waiting creator's first record joins the tail; a
creator with further records keeps its place in the order (for the records of one late line this is the model's choice, log
entry 40), and a drain in CLEAR_WAIT ends.
The position, image and counts of a checkpoint that starts, which the image fix sets, stand at 0 or empty until then (the
model's choice, log entry 41). -/
def Obligations.RecordsJoinAndAreIssued : Prop :=
  (∀ (r : StagedRecord) (rest : List StagedRecord) (s : State), s.jrn.staging = r :: rest → s.jrn.writing = false →
    s.jrn.full = false → (∀ c, s.jrn.checkpoint = some c → c.phase ≠ .starting) →
    (s.working = true ∨ s.unit.state = .safe) →
    ∀ (seq : Word32) (head used : Nat) (full : Bool) (done : Option Checkpoint → Host.Outcome State Fault Refusal),
    seq = r.seq.getD s.jrn.nextSeq → head = (s.jrn.head + 1) % 2048 → full = decide (head = s.jrn.tail) →
    used = (if full = true then 2048 else (head + 2048 - s.jrn.tail) % 2048) →
    (∀ checkpoint, done checkpoint = .next (settle { s with
      out := Outputs.none
      jrn := { s.jrn with
        staging := { r with seq := some seq } :: rest
        writing := true
        head := head
        full := full
        nextSeq := if r.seq = none then s.jrn.nextSeq + 1 else s.jrn.nextSeq
        fence :=
          match r.record, r.seq with
          | .fenceSet v, none => v
          | _, _ => s.jrn.fence
        checkpoint := checkpoint }
      media := { s.media with
        arriving := s.media.arriving ++
          [⟨.journal, .journal, .write (.metaLine (.record seq r.record true)), slotLine s.nP s.jrn.head⟩] } })) →
    ∀ (triggers : Prop), (triggers ↔
      1536 ≤ used ∧ (s.running = true ∨ s.unit.state = .closing) ∧ s.jrn.checkpoint = none) →
    (¬triggers → exec .recordWriteIssue s =
      done (s.jrn.checkpoint.map fun c => { c with slotsTaken := c.slotsTaken + 1 })) ∧
    (∀ d, triggers → s.jrn.descriptor = some d → exec .recordWriteIssue s = done (some {
      phase := .starting, area := if d.area = .a then .b else .a, seq := d.seq + 1, posSeq := 0#32, posSlot := 0
      clean := false, linesWritten := 0, image := Image.none, imageCheck := 0#32, slotsTaken := 0 }))) ∧
  (∀ (w : Waiter) (ws : List Waiter) (r : JournalRecord) (more : List JournalRecord) (s : State),
    s.jrn.waiters = w :: ws → w.records = r :: more → s.jrn.staging.length < 16 → s.unit.state ≠ .failed →
    exec .creatorJoinQueue s = .next (settle { s with
      out := Outputs.none
      jrn := { s.jrn with
        staging := s.jrn.staging ++ [⟨w.creator, r, none⟩]
        waiters := if more = [] then ws else ⟨w.creator, more⟩ :: ws }
      buf :=
        match w.creator, r with
        | .drain p, .poisonClear _ => { s.buf with drains := s.buf.drains.filter fun d => d.place ≠ p }
        | _, _ => s.buf }))

/-- RECORD_WRITE_COMPLETE stored: the head record leaves the staging queue with the effect of Table 7.2. OPEN, SPARE_RETIRE
and POISON_CLEAR have none beyond durability; FENCE_SET raises FENCE_STORED; MOVE_COMMIT lets the switch follow. POISON_SET
sets the line's flag, in the pending poison mask too while its frame is in COMMIT_WAIT: for a drain in POISON_WAIT the
formed line is then written (R34); for one in LOSING the writes held are lost and the drain ends (R39), here with no READ
waiting for the loss; for a late line the late flag is cleared once its copy is done with and no other record of the line is
awaited (R101, log entry 13). SHUTDOWN enters SAFE: with origin DRAIN_LOCK under the warning; with the warning already
deasserted SAFE is left in the same happening, OPEN handed over, here to a queue with room, for ONLINE or WRITE_PROTECTED by
the latch (R167); with origin PREPARE_OFF from CLOSING, where restart pending makes the volatile reset in its place: that
STATE_CHANGED alone stands after it is the model's choice (log entry 16). Failed to program, the record stays at the head to
be written again. -/
def Obligations.RecordOutcomesMakeRecordsDurable : Prop :=
  ∀ (op : InFlight) (r : StagedRecord) (rest : List StagedRecord) (s u : State), s.Writing op .journal →
    s.jrn.staging = r :: rest →
    u = { s with
      out := Outputs.none, map := s.worn (op.request.physical / 64), media := s.freed op
      jrn := { s.jrn with writing := false, staging := rest } } →
    (r.record = .opened ∨ (∃ f, r.record = .spareRetire f) ∨ (∃ l, r.record = .poisonClear l) →
      exec (.recordWriteComplete op.id .stored) s = .next (settle u)) ∧
    (∀ v, r.record = .fenceSet v →
      exec (.recordWriteComplete op.id .stored) s = .next (settle { u with link := s.flagged .fenceStored })) ∧
    (∀ l n o f p, r.record = .moveCommit l n o f p →
      exec (.recordWriteComplete op.id .stored) s = .next (settle { u with
        mig := { s.mig with current := s.mig.current.map fun m => { m with commitDurable := true } } })) ∧
    (∀ (line : Nat) (bit : Flags64) (map : MapController) (current : Option Migration),
      r.record = .poisonSet line → bit = 1#64 <<< (line % 64) →
      map = { s.worn (op.request.physical / 64) with
        entries := s.map.entries.modify (line / 64) fun x => { x with poison := x.poison ||| bit } } →
      current = (s.mig.current.map fun m => if m.phase = .commitWait ∧ m.logical = line / 64 then
          { m with pendingPoison := m.pendingPoison ||| bit }
        else m) →
      (∀ p d, r.creator = .drain p → s.drain? p = some d → d.line = line →
        (d.phase = .poisonWait → s.unit.state ≠ .reset → s.unit.state ≠ .failed →
          exec (.recordWriteComplete op.id .stored) s = .next (settle { u with
            map := map
            mig := { s.mig with current := current }
            buf := { s.buf with
              drains := s.buf.drains.map fun x =>
                if x.place = p then { x with formed := d.formed, phase := .write } else x }
            media := { s.freed op with
              arriving := s.media.arriving ++ [⟨.drain, .drain p, .write (.data d.formed), d.physical⟩] }
            link := s.flagged .poisonCreated })) ∧
        (∀ sl, d.phase = .losing → s.slot? line = some sl →
          (∀ e ∈ s.host.entries, e.standing ≠ .reading true) →
          exec (.recordWriteComplete op.id .stored) s = .next (settle { u with
            map := map
            mig := { s.mig with current := current }
            buf :=
              match sl.redirty with
              | none =>
                { s.buf with
                  drains := s.buf.drains.filter fun x => x.place ≠ p
                  slots := s.buf.slots.filter fun x => x.line ≠ line
                  pressure :=
                    if s.buf.pressure = true then
                      decide (s.time.active.lowWater < (s.buf.slots.filter fun x => x.line ≠ line).length)
                    else decide (s.time.active.highWater ≤ (s.buf.slots.filter fun x => x.line ≠ line).length) }
              | some mark =>
                { s.buf with
                  drains := s.buf.drains.filter fun x => x.place ≠ p
                  slots := s.buf.slots.map fun x =>
                    if x.line = line then
                      { x with
                        draining := false, stamp := mark.tick, oldest := mark.seq, redirty := none,
                        failedOnce := false }
                    else x }
            health := { s.health with lostWrites := satRaise max32 s.health.lostWrites }
            link := s.flagged .poisonCreated }))) ∧
      (∀ i m, r.creator = .lateCopy i → i < 64 → s.mig.current = some m → m.phase = .commitWait →
        line = m.logical * 64 + i → ∀ done, done = { m with
          pendingPoison := m.pendingPoison ||| bit, lateAwaited := m.lateAwaited.erase i } →
        exec (.recordWriteComplete op.id .stored) s = .next (settle { u with
          map := map
          mig := { s.mig with
            current := some (if m.lateSettled.getLsbD i = true ∧ i ∉ m.lateAwaited.erase i then
                { done with
                  lateMask := m.lateMask &&& ~~~bit, lateSettled := m.lateSettled &&& ~~~bit
                  lateFail := if m.lateFail = some i then none else m.lateFail }
              else done) } }))) ∧
    (r.record = .shutdown → s.jrn.checkpoint = none →
      (s.unit.state = .drainLock → s.unit.holdUp = true →
        exec (.recordWriteComplete op.id .stored) s = .next (settle { u with
          unit := { s.unit with
            state := .safe, safeOrigin := some .drainLock, stage := none, restartPending := false }
          link := s.flagged .stateChanged })) ∧
      (s.unit.state = .drainLock → s.unit.holdUp = false → s.map.loaded = true → s.jrn.waiters = [] → rest.length < 16 →
        exec (.recordWriteComplete op.id .stored) s = .next (settle { u with
          unit := { s.unit with
            state := if s.map.latch = true then .writeProtected else .online, safeOrigin := none, stage := none
            restartPending := false }
          jrn := { s.jrn with writing := false, staging := rest ++ [⟨.unitControl, .opened, none⟩] }
          link := s.flagged .stateChanged })) ∧
      (s.unit.state = .closing → s.unit.restartPending = false →
        exec (.recordWriteComplete op.id .stored) s = .next (settle { u with
          unit := { s.unit with
            state := .safe, safeOrigin := some .prepareOff, stage := none, restartPending := false }
          link := s.flagged .stateChanged })) ∧
      (s.unit.state = .closing → s.unit.restartPending = true → s.unit.holdUp = false →
        exec (.recordWriteComplete op.id .stored) s = .next (settle { State.reset with
          out := { Outputs.none with mediaDiscard := true }
          pending := s.pending
          unit := { State.reset.unit with
            state := .recovering, sizeStraps := s.unit.sizeStraps, addrStraps := s.unit.addrStraps
            recovery := some recoveryStart }
          media := { MediaPort.empty with arriving := [unitRequest .read 0] }
          link := ⟨s.link.response, Event.stateChanged.flag, 0#17⟩ }))) ∧
    exec (.recordWriteComplete op.id .programFail) s = .next (settle { s with
      out := Outputs.none
      map := s.worn (op.request.physical / 64)
      health := { s.health with programFails := satRaise max32 s.health.programFails }
      media := { s.freed op with lastError := s.errorRecord op .programFail 0 }
      jrn := { s.jrn with writing := false } })

/-- CHECKPOINT_IMAGE_FIX, with no record write in flight: the position is the ring head with the sequence number its next
write will carry, the phase is IMAGE and the first image line is requested. The image shows poison still to be cleared,
TARGET frames and frames with a SPARE_RETIRE not issued as SPARE with no owner, and the journaled fence (R130). How the
image is arranged in its lines is the model's choice (log entry 7).
CHECKPOINT_LINE_COMPLETE: an image line stored asks for the next, and after the last for the header; the header stored
commits, moving descriptor and tail and setting the sweep count to 0; a program fail ends it with CHECKPOINT_FAILED. The image
check is a free fold over the lines, from 0 (log entry 8). With its clean flag set in CLOSING, its commit ends the sequence
(R164): SAFE with origin PREPARE_OFF, or, with restart pending, the volatile reset, after which STATE_CHANGED alone stands
(the model's choice, log entry 16); its failure hands over SHUTDOWN, here to a queue with room, in stage SHUTDOWN (R165).
A write of an abandoned checkpoint, whether or not one is in progress, changes nothing of the journal. -/
def Obligations.CheckpointsAreFixedWrittenAndCommitted : Prop :=
  (∀ (c : Checkpoint) (s : State), s.jrn.checkpoint = some c → c.phase = .starting → s.jrn.writing = false →
    s.unit.state ≠ .reset → s.unit.state ≠ .failed →
    ∀ (image : Image), image = imageOf s →
    (image.fence = s.jrn.fence ∧ image.unclean = s.map.unclean ∧
      (∀ f r, s.frame? f = some r → r.role = .target ∨ JournalRecord.spareRetire f ∈ s.jrn.unissued →
        image.frames[f]? = some { r with role := .spare, owner := none }) ∧
      (∀ f r, s.frame? f = some r → r.role ≠ .target → JournalRecord.spareRetire f ∉ s.jrn.unissued →
        image.frames[f]? = some r) ∧
      (∀ l e line, s.entry? l = some e → line / 64 = l → JournalRecord.poisonClear line ∈ s.jrn.unissued →
        ∃ poison, image.entries[l]? = some (e.frame, poison) ∧ poison.getLsbD (line % 64) = true)) ∧
    exec .checkpointImageFix s = .next (settle { s with
      out := Outputs.none
      jrn := { s.jrn with checkpoint := some { c with
        phase := .image
        posSlot := s.jrn.head
        posSeq := (s.jrn.staging.head?.bind (·.seq)).getD s.jrn.nextSeq
        image := image } }
      media := { s.media with
        arriving := s.media.arriving ++
          [⟨.checkpoint, .checkpoint, .write (.metaLine (image.line 0)), imageLineAt s.nP c.area 0⟩] } })) ∧
  (∀ (c : Checkpoint) (op : InFlight) (s : State), s.jrn.checkpoint = some c →
    s.unit.state ≠ .reset → s.unit.state ≠ .failed →
    (s.Writing op .checkpoint → c.phase = .image → c.linesWritten + 1 < imageLines s.nP →
      exec (.checkpointLineComplete op.id .stored) s = .next (settle { s with
        out := Outputs.none
        map := s.worn (op.request.physical / 64)
        jrn := { s.jrn with checkpoint := some { c with
          linesWritten := c.linesWritten + 1
          imageCheck := Config.imageCheckStep c.imageCheck (c.image.line c.linesWritten) } }
        media := { s.freed op with
          arriving := s.media.arriving ++
            [⟨.checkpoint, .checkpoint, .write (.metaLine (c.image.line (c.linesWritten + 1))),
              imageLineAt s.nP c.area (c.linesWritten + 1)⟩] } })) ∧
    (∀ check, s.Writing op .checkpoint → c.phase = .image → c.linesWritten + 1 = imageLines s.nP →
      check = Config.imageCheckStep c.imageCheck (c.image.line c.linesWritten) →
      exec (.checkpointLineComplete op.id .stored) s = .next (settle { s with
        out := Outputs.none
        map := s.worn (op.request.physical / 64)
        jrn := { s.jrn with checkpoint := some { c with
          phase := .header, linesWritten := c.linesWritten + 1, imageCheck := check } }
        media := { s.freed op with
          arriving := s.media.arriving ++
            [⟨.checkpoint, .checkpoint,
              .write (.metaLine (.header ⟨c.seq, c.posSeq, c.posSlot, c.clean, check⟩ true)),
              headerLine s.nP c.area⟩] } })) ∧
    (∀ (closes : Prop) (committed failed : State), s.Writing op .checkpoint →
      (closes ↔ c.clean = true ∧ s.unit.state = .closing) →
      committed = { s with
        out := Outputs.none
        map := s.worn (op.request.physical / 64)
        media := s.freed op
        time := { s.time with sweeps := 0 }
        jrn := { s.jrn with
          checkpoint := none
          descriptor := some ⟨c.area, c.seq, c.posSeq, c.posSlot, c.clean⟩
          tail := c.posSlot
          full := decide (c.slotsTaken = 2048) }
        link := s.flagged .checkpointDone } →
      failed = { s with
        out := Outputs.none
        map := s.worn (op.request.physical / 64)
        health := { s.health with programFails := satRaise max32 s.health.programFails }
        media := { s.freed op with lastError := s.errorRecord op .programFail 0 }
        jrn := { s.jrn with checkpoint := none }
        link := s.flagged .checkpointFailed } →
      (c.phase = .header → ¬closes → exec (.checkpointLineComplete op.id .stored) s = .next (settle committed)) ∧
      (c.phase = .header → closes → s.unit.restartPending = false →
        exec (.checkpointLineComplete op.id .stored) s = .next (settle { committed with
          unit := { s.unit with
            state := .safe, safeOrigin := some .prepareOff, stage := none, restartPending := false }
          link := { s.link with flags := s.link.flags ||| Event.checkpointDone.flag ||| Event.stateChanged.flag } })) ∧
      (c.phase = .header → closes → s.unit.restartPending = true → s.unit.holdUp = false →
        exec (.checkpointLineComplete op.id .stored) s = .next (settle { State.reset with
          out := { Outputs.none with mediaDiscard := true }
          pending := s.pending
          unit := { State.reset.unit with
            state := .recovering, sizeStraps := s.unit.sizeStraps, addrStraps := s.unit.addrStraps
            recovery := some recoveryStart }
          media := { MediaPort.empty with arriving := [unitRequest .read 0] }
          link := ⟨s.link.response, Event.stateChanged.flag, 0#17⟩ })) ∧
      (¬closes → exec (.checkpointLineComplete op.id .programFail) s = .next (settle failed)) ∧
      (closes → s.jrn.waiters = [] → s.jrn.staging.length < 16 →
        exec (.checkpointLineComplete op.id .programFail) s = .next (settle { failed with
          unit := { s.unit with stage := some .shutdown }
          jrn := { s.jrn with
            checkpoint := none, staging := s.jrn.staging ++ [⟨.unitControl, .shutdown, none⟩] } })))) ∧
  (∀ (op : InFlight) (s : State), s.Writing op .orphan →
    exec (.checkpointLineComplete op.id .stored) s = .next (settle { s with
      out := Outputs.none, map := s.worn (op.request.physical / 64), media := s.freed op }) ∧
    exec (.checkpointLineComplete op.id .programFail) s = .next (settle { s with
      out := Outputs.none
      map := s.worn (op.request.physical / 64)
      health := { s.health with programFails := satRaise max32 s.health.programFails }
      media := { s.freed op with lastError := s.errorRecord op .programFail 0 } }))

/-- The stages of the two sequences: with everything emptied DRAIN_LOCK hands over SHUTDOWN and stands in stage SHUTDOWN,
CLOSING stands in stage CHECKPOINT; there the closing checkpoint starts, clean, in the other area, one sequence on, once
none is in progress. A waiting creator's record would come first, and there is none.
The position, image and counts of a checkpoint that starts, which the image fix sets, stand at 0 or empty until then (the
model's choice, log entry 41). -/
def Obligations.SequenceStagesFollowTheEmptying : Prop :=
  ∀ s : State,
    (s.unit.state = .drainLock → s.unit.stage = some .emptying → s.emptied = true →
      exec .drainLockEmptyingEnd s = .next (settle { s with
        out := Outputs.none
        unit := { s.unit with stage := some .shutdown }
        jrn := { s.jrn with staging := [⟨.unitControl, .shutdown, none⟩] } })) ∧
    (s.unit.state = .closing → s.unit.stage = some .emptying → s.emptied = true →
      exec .closingEmptyingEnd s = .next (settle { s with
        out := Outputs.none, unit := { s.unit with stage := some .checkpoint } })) ∧
    (∀ d, s.unit.state = .closing → s.unit.stage = some .checkpoint → s.jrn.checkpoint = none →
      s.jrn.descriptor = some d → exec .closingCheckpointStart s = .next (settle { s with
        out := Outputs.none
        jrn := { s.jrn with
          checkpoint := some {
            phase := .starting, area := if d.area = .a then .b else .a, seq := d.seq + 1, posSeq := 0#32, posSlot := 0
            clean := true, linesWritten := 0, image := Image.none, imageCheck := 0#32, slotsTaken := 0 } } }))

/-! ### FORMAT and recovery (ch7, ch8) -/

/-- FORMAT_OPERATION_COMPLETE: the read of the old record, CLEAN or CORRECTED, decides the format count, one above a valid
record's and 1 otherwise, for an UNCORRECTABLE read too, and the wipe of slot 0 is requested. Each write stored asks for the
next operation of Table 8.4: the slots 0 to 2,047 with the invalid-check pattern, the fresh image's lines in ascending order
in area A, header A with checkpoint sequence 1, position slot 0 and record sequence 1, clean, header B invalid, and the new
geometry record in line 0. A write that fails to program enters FAILED. The last write completes FORMAT. What 64 bytes hold
is read and laid out by the part's own layout (log entry 6), the image is arranged in its lines by the model's choice (log
entry 7), and its check is a free fold over the lines (log entry 8). -/
def Obligations.FormatMakesItsOperationsInOrder : Prop :=
  ∀ (op : InFlight) (w : FormatWork) (s : State), s.unit.format = some w → s.unit.state = .formatting →
    s.map.loaded = false → s.map.frames = [] →
    ∀ (nP : Nat) (g : GeometryRecord) (image : Image), nP = strapsNP s.unit.sizeStraps →
    g = ⟨nP, w.spares, w.retireWear, w.newCount⟩ →
    image = {
      entries := (List.range (logicalCount g)).map fun f => (metaCount g + f, 0#64), frames := freshFrames g
      fence := logicalCount g, unclean := 0 } →
    (∀ (stored : Stored) (delivered : Option LineData) (health : HealthMonitor) (media : MediaPort) (count : Nat),
      s.Reading op .unitControl → s.ReadLeaves op stored delivered health media →
      count = (match delivered.map Config.metaFormat.read with
        | some (.geometry old true) => if geometryInRange old then (old.formatCount + 1) % 2 ^ 32 else 1
        | _ => 1) →
      exec (.formatOperationComplete op.id (.read stored)) s = .next (settle { s with
        out := Outputs.none
        unit := { s.unit with format := some { w with newCount := count, step := .wipeSlot 0 } }
        health := health
        media := { media with
          arriving := s.media.arriving ++ [unitRequest (.write (.metaLine .invalid)) (slotLine nP 0)] } })) ∧
    (∀ (asks : FormatStep → Word32 → MetaLine → Nat → Prop), s.Writing op .unitControl →
      (∀ step check content line, asks step check content line ↔
        exec (.formatOperationComplete op.id (.write .stored)) s = .next (settle { s with
          out := Outputs.none
          unit := { s.unit with format := some { w with step := step, imageCheck := check } }
          media := { s.freed op with
            arriving := s.media.arriving ++ [unitRequest (.write (.metaLine content)) line] } })) →
      (∀ k, w.step = .wipeSlot k → k < 2047 → asks (.wipeSlot (k + 1)) w.imageCheck .invalid (slotLine nP (k + 1))) ∧
      (w.step = .wipeSlot 2047 → asks (.imageLine 0) w.imageCheck (image.line 0) (imageLineAt nP .a 0)) ∧
      (∀ k check, w.step = .imageLine k → check = Config.imageCheckStep w.imageCheck (image.line k) →
        (k + 1 < imageLines nP →
          asks (.imageLine (k + 1)) check (image.line (k + 1)) (imageLineAt nP .a (k + 1))) ∧
        (k + 1 = imageLines nP →
          asks .headerA check (.header ⟨1#32, 1#32, 0, true, check⟩ true) (headerLine nP .a))) ∧
      (w.step = .headerA → asks .headerB w.imageCheck .invalid (headerLine nP .b)) ∧
      (w.step = .headerB → asks .newRecord w.imageCheck (.geometry g true) 0)) ∧
    (s.Writing op .unitControl → w.step = .newRecord → s.jrn = JournalController.empty →
      exec (.formatOperationComplete op.id (.write .stored)) s = .next (settle { s with
        out := Outputs.none
        unit := { s.unit with state := .online, format := none, standing := some .inUse, geometry := some g }
        map := {
          loaded := true, entries := freshEntries g, frames := freshFrames g, pool := buildPool (freshFrames g)
          fence := logicalCount g, volatileFence := none, latch := false, unclean := 0 }
        media := s.freed op
        time := { s.time with sweeps := 0 }
        jrn := { JournalController.empty with
          nextSeq := 1#32, fence := logicalCount g, descriptor := some ⟨.a, 1#32, 1#32, 0, true⟩
          staging := [⟨.unitControl, .opened, none⟩] }
        link := { s.link with flags := s.link.flags ||| Event.formatDone.flag ||| Event.stateChanged.flag } })) ∧
    (s.Writing op .unitControl → ∃ t, exec (.formatOperationComplete op.id (.write .programFail)) s = .next t ∧
      t.unit.state = .failed ∧ t.unit.failCause = some .formatProgramFail ∧ t.map = s.map ∧ t.media.inflight = [] ∧
      t.health.programFails = satRaise max32 s.health.programFails)

/-- RECOVERY_READ_COMPLETE of the geometry record: UNCORRECTABLE, or CLEAN and not valid under R2, the unit is UNFORMATTED
with standing INVALID; valid with an N_P other than the straps', MISMATCH; otherwise the figures are in use and area A's
header is read. What 64 bytes hold is read by the part's own layout (log entry 6). -/
def Obligations.RecoveryJudgesTheGeometryRecord : Prop :=
  ∀ (op : InFlight) (w : RecoveryWork) (stored : Stored) (s : State), s.Reading op .unitControl →
    s.unit.recovery = some w → w.step = .geometry → s.unit.state = .recovering →
    ∀ invalid : State, invalid = { s with
      out := Outputs.none
      unit := { s.unit with
        state := .unformatted, standing := some .invalid, geometry := none, recovery := none }
      media := s.freed op
      link := s.flagged .stateChanged } →
    ((∀ data, 4 < errorsFrom data stored) →
      exec (.recoveryReadComplete op.id stored) s = .next (settle { invalid with
        health := { s.health with uncorrectableReads := satRaise max32 s.health.uncorrectableReads }
        media := { s.freed op with lastError := s.errorRecord op .uncorrectable 0 } })) ∧
    (∀ data, errorsFrom data stored = 0 →
      ((∀ g, Config.metaFormat.read data = .geometry g true → geometryInRange g = false) →
        exec (.recoveryReadComplete op.id stored) s = .next (settle invalid)) ∧
      (∀ g, Config.metaFormat.read data = .geometry g true → geometryInRange g = true →
        (g.nP ≠ strapsNP s.unit.sizeStraps → exec (.recoveryReadComplete op.id stored) s = .next (settle { s with
          out := Outputs.none
          unit := { s.unit with
            state := .unformatted, standing := some .mismatch, geometry := some g, recovery := none }
          media := s.freed op
          link := s.flagged .stateChanged })) ∧
        (g.nP = strapsNP s.unit.sizeStraps → exec (.recoveryReadComplete op.id stored) s = .next (settle { s with
          out := Outputs.none
          unit := { s.unit with
            standing := some .inUse, geometry := some g, recovery := some { w with step := .headerA } }
          media := { s.freed op with
            arriving := s.media.arriving ++ [unitRequest .read (headerLine g.nP .a)] } }))))

/-- Recovery after the geometry record. Header A's outcome is held and header B is read; with header B's outcome the image
of the first candidate is read from its first line, its check from 0 (log entry 8), or, with neither header usable, the unit
is FAILED for want of a checkpoint. The candidate order holds the usable headers' areas, the higher checkpoint sequence first
and area A first on equal ones, and on two exactly 2^31 apart (the model's choice, log entry 27). Image lines are read in
order. A line UNCORRECTABLE, or a check other than the header's after the last, rejects the area, and so does an image that
the geometry contradicts (R152): the next candidate's image is read, or the unit is FAILED, IMAGE_INCONSISTENT where some
image passed its check. An area accepted sets the descriptor, and replay begins at its position slot. A slot that ends replay
loads the tables: the tail is the position's slot, the persistent fence the replayed one, the unclean count one more after an
unclean shutdown, and the unit ONLINE or WRITE_PROTECTED. What 64 bytes hold is read by the part's own layout (log entry 6),
and an image's items lie in its lines by the model's choice (log entry 7). -/
def Obligations.RecoveryChoosesItsAreaAndLoadsTheTables : Prop :=
  (∀ (op : InFlight) (w : RecoveryWork) (stored : Stored) (delivered : Option LineData) (health : HealthMonitor)
    (media : MediaPort) (s : State), s.Reading op .unitControl → s.unit.recovery = some w →
    s.unit.state = .recovering → s.ReadLeaves op stored delivered health media →
    ∀ (read : Option MetaLine) (usable : Option CheckpointHeader) (asks : RecoveryWork → Nat → State)
      (fails : FailCause → Prop), read = delivered.map Config.metaFormat.read →
    usable = (match read with
      | some (.header h true) => if h.posSlot < 2048 then some h else none
      | _ => none) →
    (∀ v line, asks v line = { s with
      out := Outputs.none
      unit := { s.unit with recovery := some v }
      health := health
      media := { media with arriving := s.media.arriving ++ [unitRequest .read line] } }) →
    (∀ cause, fails cause ↔ ∃ t, exec (.recoveryReadComplete op.id stored) s = .next t ∧ t.unit.state = .failed ∧
      t.unit.failCause = some cause ∧ t.map = s.map ∧ t.media.inflight = []) →
    (w.step = .headerA → exec (.recoveryReadComplete op.id stored) s =
      .next (settle (asks { w with step := .headerB, headerA := usable } (headerLine s.nP .b)))) ∧
    (∀ area rest, w.step = .headerB → candidateOrder w.headerA usable = area :: rest →
      exec (.recoveryReadComplete op.id stored) s = .next (settle (asks
        { w with headerB := usable, candidates := area :: rest, step := .image ⟨0, 0#32, []⟩ }
        (imageLineAt s.nP area 0)))) ∧
    (w.step = .headerB → w.headerA = none → usable = none → w.sawInconsistent = false → fails .noCheckpoint) ∧
    (∀ (x : ImageWork) (area : Area) (rest : List Area) (g : GeometryRecord), w.step = .image x →
      w.candidates = area :: rest → s.geometryInUse = some g →
      ∀ (rejects : Bool → Prop), (∀ bad, rejects bad ↔
        (∀ other more, rest = other :: more → exec (.recoveryReadComplete op.id stored) s = .next (settle (asks
          { w with
            candidates := rest, sawInconsistent := w.sawInconsistent || bad, step := .image ⟨0, 0#32, []⟩ }
          (imageLineAt g.nP other 0)))) ∧
        (rest = [] → fails (if w.sawInconsistent || bad then .imageInconsistent else .noCheckpoint))) →
      (read = none → rejects false) ∧
      (∀ (m : MetaLine) (y : ImageWork) (h : CheckpointHeader) (t : Tables), read = some m →
        y = ⟨x.line + 1, Config.imageCheckStep x.check m,
          (match m with
            | .image items => items
            | _ => []) :: x.items⟩ →
        w.headerOf area = some h → t = tablesOf y.items.reverse.flatten →
        (y.line < imageLines g.nP → exec (.recoveryReadComplete op.id stored) s =
          .next (settle (asks { w with step := .image y } (imageLineAt g.nP area y.line)))) ∧
        (imageLines g.nP ≤ y.line → y.check ≠ h.imageCheck → rejects false) ∧
        (imageLines g.nP ≤ y.line → y.check = h.imageCheck → consistent g t = false → rejects true) ∧
        (imageLines g.nP ≤ y.line → y.check = h.imageCheck → consistent g t = true →
          exec (.recoveryReadComplete op.id stored) s = .next (settle
            { asks { w with step := .replay ⟨0, h.posSlot, h.posSeq, none, 0, t⟩ } (slotLine g.nP h.posSlot) with
              jrn := { s.jrn with
                descriptor := some ⟨area, h.seq, h.posSeq, h.posSlot, h.clean⟩ } }))))) ∧
  (∀ a b : CheckpointHeader, candidateOrder none none = [] ∧ candidateOrder (some a) none = [.a] ∧
    candidateOrder none (some b) = [.b] ∧ candidateOrder (some a) (some b) =
      if 1 ≤ (b.seq - a.seq).toNat ∧ (b.seq - a.seq).toNat < 2 ^ 31 then [.b, .a] else [.a, .b]) ∧
  (∀ (g : GeometryRecord) (t : Tables), consistent g t = true ↔
    t.frames.length = g.nP ∧ t.entries.length = logicalCount g ∧
    (∀ f r, t.frames[f]? = some r → (r.role = .metadata ↔ f < metaCount g) ∧ r.role ≠ .target) ∧
    t.frames.countP (fun r => r.role = .mapped) = logicalCount g ∧
    t.frames.countP (fun r => r.role = .spare ∨ r.role = .retired) = g.spares ∧
    (∀ (l : Nat) (e : MapEntry), t.entries[l]? = some e →
      ∃ r, t.frames[e.frame]? = some r ∧ r.role = .mapped ∧ r.owner = some l) ∧
    (∀ (l k : Nat) (e d : MapEntry), t.entries[l]? = some e → t.entries[k]? = some d → e.frame = d.frame → l = k) ∧
    1 ≤ t.fence ∧ t.fence ≤ logicalCount g) ∧
  (∀ (op : InFlight) (w : RecoveryWork) (x : ReplayWork) (area : Area) (rest : List Area) (h : CheckpointHeader)
    (g : GeometryRecord) (stored : Stored) (data : LineData) (s : State), s.Reading op .unitControl →
    s.unit.recovery = some w → s.unit.state = .recovering → w.step = .replay x → w.candidates = area :: rest →
    w.headerOf area = some h → s.geometryInUse = some g → errorsFrom data stored = 0 →
    judgeSlot g x (validSlot (some (Config.metaFormat.read data))) = .stop →
    ∀ (clean : Bool),
    clean = (match x.applied with
      | some a => decide (a.record = .shutdown)
      | none => h.clean) →
    ∃ t, exec (.recoveryReadComplete op.id stored) s = .next t ∧ t.map.loaded = true ∧
      (t.unit.state = .online ∨ t.unit.state = .writeProtected) ∧ t.unit.recovery = none ∧
      t.jrn.tail = h.posSlot ∧ t.map.fence = x.tables.fence ∧
      t.map.unclean = (if clean then x.tables.unclean else satRaise max32 x.tables.unclean))

/-- The judgement of a slot in replay, by Table 7.6: an invalid slot is skipped; the expected sequence number is applied,
or ends replay as a contradiction; the applied record met again is skipped; anything else ends replay.
The records by Table 7.7: each kind, where its conditions hold, has its effect on the tables, and contradicts them where they
do not; SHUTDOWN and OPEN change nothing, and an unknown kind contradicts. Replay changes no wear count, no corrected-errors
count and no retire-overdue mark, and keeps the number of entries and of frame records, whatever record it applies (R137).
RECOVERY_READ_COMPLETE in replay: a slot skipped or applied asks for the next slot, with wrap, until 2,048 are judged; that
end, a contradiction, which raises RECOVERY_TRUNCATED, and any other end take the ring up (R138: tail, head, full flag,
journaled fence, and a next sequence number 4,096 past the position's after a truncated replay or the lower of two areas),
scan and load the tables (R118, R153), and enter ONLINE or WRITE_PROTECTED by the latch; a checkpoint starts in the other
area (R128), and OPEN is handed over after a clean shutdown (R154). What 64 bytes hold is read by the part's own layout (log
entry 6).
The position, image and counts of a checkpoint that starts, which the image fix sets, stand at 0 or empty until then (the
model's choice, log entry 41). -/
def Obligations.ReplayJudgesAndAppliesRecords : Prop :=
  (∀ (g : GeometryRecord) (x : ReplayWork) (seq : Word32) (r : JournalRecord),
    judgeSlot g x none = .skip ∧
    (seq = x.expected → ∀ t, applyRecord g r x.tables = some t → judgeSlot g x (some (seq, r)) = .apply t) ∧
    (seq = x.expected → applyRecord g r x.tables = none → judgeSlot g x (some (seq, r)) = .contradiction) ∧
    (seq ≠ x.expected → (∃ a, x.applied = some a ∧ a.seq = seq ∧ a.record = r) →
      judgeSlot g x (some (seq, r)) = .skip) ∧
    (seq ≠ x.expected → (∀ a, x.applied = some a → a.seq ≠ seq ∨ a.record ≠ r) →
      judgeSlot g x (some (seq, r)) = .stop)) ∧
  (∀ (g : GeometryRecord) (t : Tables),
    (∀ l new old fate poison, ∀ (fits : Prop), (fits ↔ l < logicalCount g ∧ fate ≠ .invalid ∧
        (∃ o, t.frames[old]? = some o ∧ o.role = .mapped ∧ o.owner = some l) ∧
        (∃ n, t.frames[new]? = some n ∧ n.role = .spare)) →
      (fits → applyRecord g (.moveCommit l new old fate poison) t = some { t with
        entries := t.entries.modify l fun e => { e with frame := new, poison := poison }
        frames := (t.frames.modify new fun x => { x with role := .mapped, owner := some l }).modify old fun x =>
          { x with role := if fate = .spare then .spare else .retired, owner := none, wanted := false } }) ∧
      (¬fits → applyRecord g (.moveCommit l new old fate poison) t = none)) ∧
    (∀ f, ((∃ x, t.frames[f]? = some x ∧ x.role = .spare) → applyRecord g (.spareRetire f) t =
        some { t with frames := t.frames.modify f fun x => { x with role := .retired } }) ∧
      (¬(∃ x, t.frames[f]? = some x ∧ x.role = .spare) → applyRecord g (.spareRetire f) t = none)) ∧
    (∀ line, (line < logicalCount g * 64 →
        applyRecord g (.poisonSet line) t = some { t with
          entries := t.entries.modify (line / 64) fun e => { e with poison := e.poison ||| 1#64 <<< (line % 64) } } ∧
        applyRecord g (.poisonClear line) t = some { t with
          entries := t.entries.modify (line / 64) fun e =>
            { e with poison := e.poison &&& ~~~(1#64 <<< (line % 64)) } }) ∧
      (logicalCount g * 64 ≤ line →
        applyRecord g (.poisonSet line) t = none ∧ applyRecord g (.poisonClear line) t = none)) ∧
    (∀ v, (1 ≤ v ∧ v ≤ logicalCount g →
        applyRecord g (.fenceSet v) t = some { t with fence := v, journaledFence := v }) ∧
      (v = 0 ∨ logicalCount g < v → applyRecord g (.fenceSet v) t = none)) ∧
    applyRecord g .shutdown t = some t ∧ applyRecord g .opened t = some t ∧
    (∀ kind, applyRecord g (.unknown kind) t = none)) ∧
  (∀ (g : GeometryRecord) (r : JournalRecord) (t u : Tables), applyRecord g r t = some u →
    u.frames.map (fun x => (x.wear, x.corrected, x.overdue)) =
      t.frames.map (fun x => (x.wear, x.corrected, x.overdue)) ∧
    u.entries.length = t.entries.length ∧ u.unclean = t.unclean) ∧
  (∀ (op : InFlight) (w : RecoveryWork) (x : ReplayWork) (area : Area) (rest : List Area) (h : CheckpointHeader)
    (g : GeometryRecord) (d : Descriptor) (stored : Stored) (delivered : Option LineData) (health : HealthMonitor)
    (media : MediaPort) (s : State), s.Reading op .unitControl → s.unit.recovery = some w →
    s.unit.state = .recovering → w.step = .replay x → w.candidates = area :: rest → w.headerOf area = some h →
    s.geometryInUse = some g → s.jrn.descriptor = some d → s.jrn.staging = [] → s.jrn.waiters = [] →
    s.ReadLeaves op stored delivered health media →
    ∀ (slot : Option (Word32 × JournalRecord)) (goes : ReplayWork → Prop) (ends : ReplayWork → Bool → Prop),
    slot = (match delivered.map Config.metaFormat.read with
      | some (.record seq r true) => some (seq, r)
      | _ => none) →
    (∀ y, goes y ↔ (y.judged < 2048 ∧ exec (.recoveryReadComplete op.id stored) s = .next (settle { s with
        out := Outputs.none
        unit := { s.unit with recovery := some { w with step := .replay y } }
        health := health
        media := { media with arriving := s.media.arriving ++ [unitRequest .read (slotLine g.nP y.slot)] } })) ∨
      (2048 ≤ y.judged ∧ ends y false)) →
    (∀ y truncated, ends y truncated ↔ ∀ (clean jump latch : Bool) (frames : List FrameRecord),
      clean = (match y.applied with
        | some a => decide (a.record = .shutdown)
        | none => h.clean) →
      jump = (truncated || match w.headerOf (if area = .a then .b else .a) with
        | some o => decide (1 ≤ (o.seq - h.seq).toNat ∧ (o.seq - h.seq).toNat < 2 ^ 31)
        | none => false) →
      frames = y.tables.frames.map (fun r => { r with
        wanted := decide (r.role = .mapped ∧
          (r.wanted = true ∨ g.retireWear ≤ r.wear ∨ s.time.active.retireErrors ≤ r.corrected)) }) →
      latch = frames.any (fun r => r.role = .mapped && r.overdue) →
      exec (.recoveryReadComplete op.id stored) s = .next (settle { s with
        out := Outputs.none
        unit := { s.unit with state := if latch then .writeProtected else .online, recovery := none }
        health := health
        media := media
        map := {
          loaded := true, entries := y.tables.entries, frames := frames, pool := buildPool frames
          fence := y.tables.fence, volatileFence := none, latch := latch
          unclean := if clean then y.tables.unclean else satRaise max32 y.tables.unclean }
        jrn := { s.jrn with
          tail := h.posSlot
          head := match y.applied with
            | some a => (a.slot + 1) % 2048
            | none => h.posSlot
          full := decide (y.span = 2048)
          nextSeq := if jump then h.posSeq + 4096#32 else
            match y.applied with
            | some a => a.seq + 1
            | none => h.posSeq
          fence := y.tables.journaledFence
          checkpoint := some {
            phase := .starting, area := if d.area = .a then .b else .a, seq := d.seq + 1, posSeq := 0#32, posSlot := 0
            clean := false, linesWritten := 0, image := Image.none, imageCheck := 0#32, slotsTaken := 0 }
          staging := if clean then [⟨.unitControl, .opened, none⟩] else [] }
        link := { s.link with
          flags := s.link.flags ||| (if truncated then Event.recoveryTruncated.flag else 0#17)
            ||| Event.stateChanged.flag } })) →
    (judgeSlot g x slot = .skip → goes { x with judged := x.judged + 1, slot := (x.slot + 1) % 2048 }) ∧
    (∀ seq r t, slot = some (seq, r) → judgeSlot g x slot = .apply t → goes {
      judged := x.judged + 1, slot := (x.slot + 1) % 2048, expected := x.expected + 1
      applied := some ⟨seq, r, x.slot⟩, span := x.judged + 1, tables := t }) ∧
    (judgeSlot g x slot = .contradiction → ends x true) ∧
    (judgeSlot g x slot = .stop → ends x false))

/-- The spare pool built from a frame table holds each SPARE frame once and no other, in ascending order of wear and then
frame number (R13, R15). A frame that becomes SPARE joins the pool at its ordered place: an ordered pool that did not hold it
is ordered afterwards and holds it and what it held before (R15).
Every step keeps the tables sound: map entries and MAPPED frames are paired one-to-one (R7), the pool holds exactly the SPARE
frames, once each (R13), a TARGET frame is the target of the migration in progress, whose entry names its source (R14), and
without tables loaded there is no entry, frame or pool place (R20). So the MAPPED frames number the entries and the pool's
places the SPARE frames (R5).
Of the commands that keep the tables loaded, from a sound state: none changes the number of entries or frames, which frames
are METADATA, or that a frame is RETIRED (R5, R6); one that moves an entry is the switch of the migration of its logical frame
in COMMIT_WAIT, to its target, with MIGRATION_DONE raised (R7); and an ordered pool stays ordered (R13), but by the completion
of a write to a frame in the pool, of which R11 says that there is none. -/
def Obligations.SparePoolKeepsItsOrder : Prop :=
  (∀ (frames : List FrameRecord),
    (buildPool frames).Nodup ∧
    (∀ f, f ∈ buildPool frames ↔ ∃ r, frames[f]? = some r ∧ r.role = .spare) ∧
    (buildPool frames).Pairwise (fun a b =>
      wearIn frames a < wearIn frames b ∨ (wearIn frames a = wearIn frames b ∧ a < b))) ∧
  (∀ (f : Nat) (s : State), f ∉ s.map.pool →
    s.map.pool.Pairwise (fun a b => poolBefore s.map.frames a b = true) →
    (joinPool f s).map.pool.Pairwise (fun a b => poolBefore (joinPool f s).map.frames a b = true) ∧
    (joinPool f s).map.pool.Perm (f :: s.map.pool) ∧
    (∀ r, s.frame? f = some r → (joinPool f s).frame? f = some { r with role := .spare, owner := none }) ∧
    (∀ g, g ≠ f → (joinPool f s).frame? g = s.frame? g)) ∧
  (∀ s t : State, s.MapSound → step s = .next t → t.MapSound) ∧
  (∀ s : State, s.MapSound → s.map.frames.countP (fun r => r.role = .mapped) = s.map.entries.length ∧
    s.map.frames.countP (fun r => r.role = .spare) = s.map.pool.length) ∧
  (∀ (c : Instr) (s t : State), s.MapSound → exec c s = .next t →
    (s.PoolOrdered → (∀ f ∈ s.map.pool, ¬writesFrame c s f) → t.PoolOrdered) ∧
    (s.map.loaded = true → t.map.loaded = true →
      t.map.entries.length = s.map.entries.length ∧ t.map.frames.length = s.map.frames.length ∧
      (∀ f r q, s.frame? f = some r → t.frame? f = some q →
        (q.role = .metadata ↔ r.role = .metadata) ∧ (r.role = .retired → q.role = .retired)) ∧
      (∀ l e d, s.entry? l = some e → t.entry? l = some d → d.frame ≠ e.frame →
        ∃ m, s.mig.current = some m ∧ m.logical = l ∧ m.phase = .commitWait ∧ m.target = some d.frame ∧
          t.raised .migrationDone = true)))

/-! ### The management link (ch11, Table 11.3) -/

/-- GET_STATUS, GET_HEALTH, GET_IDENTITY and READ_EVENTS are executed in every state but RESET: OK with 99, 67, 21 and 8
result bytes of the state as it stands, each field of Tables 11.5 to 11.7 at its bytes, least significant byte first (the
low bytes of a value that outgrew its field, as none does in a state that a run reaches); nothing but the pending response
changes.
The table reads answer OK with the entry named, while the tables are loaded, BAD_ARG for an entry that does not exist
and BAD_STATE while they are not; GET_SETTING answers the active and the staged value, or BAD_ARG. All change nothing but
the pending response, in every state but RESET. -/
def Obligations.QueriesAndTableReadsChangeNothing : Prop :=
  (∀ (tag : Byte) (s : State), s.unit.state ≠ .reset →
    exec (.getStatus tag []) s = .next (s.withResponse tag .ok (statusPayload s)) ∧ (statusPayload s).length = 99 ∧
    (∀ f ∈ statusFields s, leValue (((statusPayload s).drop f.1).take f.2.1) = f.2.2 % 256 ^ f.2.1) ∧
    exec (.getHealth tag []) s = .next (s.withResponse tag .ok (healthPayload s)) ∧ (healthPayload s).length = 67 ∧
    (∀ f ∈ healthFields s, leValue (((healthPayload s).drop f.1).take f.2.1) = f.2.2 % 256 ^ f.2.1) ∧
    exec (.getIdentity tag []) s = .next (s.withResponse tag .ok (identityPayload s)) ∧
    (identityPayload s).length = 21 ∧
    (∀ f ∈ identityFields s, leValue (((identityPayload s).drop f.1).take f.2.1) = f.2.2 % 256 ^ f.2.1) ∧
    exec (.readEvents tag []) s = .next (s.withResponse tag .ok (leBytes 4 s.link.flags.toNat ++ leBytes 4 s.link.enables.toNat)) ∧
    (leBytes 4 s.link.flags.toNat ++ leBytes 4 s.link.enables.toNat).length = 8) ∧
  (∀ (tag b0 b1 : Byte) (s : State), s.unit.state ≠ .reset →
    ∀ n, n = b0.toNat + 256 * b1.toNat →
    (s.map.loaded = false →
      ∀ c ∈ [Instr.readMapEntry tag [b0, b1], .readFrameRecord tag [b0, b1], .readPoolEntry tag [b0, b1]],
        exec c s = .next (s.withResponse tag .badState [])) ∧
    (s.map.loaded = true →
      (∀ e, s.map.entries[n]? = some e → exec (.readMapEntry tag [b0, b1]) s = .next (s.withResponse tag .ok
        (leBytes 2 n ++ leBytes 2 e.frame ++ leBytes 8 e.poison.toNat ++ [bitsByte [e.migrationMark, e.failMark]]))) ∧
      (s.map.entries.length ≤ n → exec (.readMapEntry tag [b0, b1]) s = .next (s.withResponse tag .badArg [])) ∧
      (∀ r, s.map.frames[n]? = some r → exec (.readFrameRecord tag [b0, b1]) s = .next (s.withResponse tag .ok
        (leBytes 2 n ++ leBytes 1 (roleCode r.role) ++ [bitsByte [r.owner.isSome, r.wanted, r.overdue]]
          ++ leBytes 2 (r.owner.getD 0) ++ leBytes 4 r.wear ++ leBytes 2 r.corrected))) ∧
      (s.map.frames.length ≤ n → exec (.readFrameRecord tag [b0, b1]) s = .next (s.withResponse tag .badArg [])) ∧
      (∀ f, s.map.pool[n]? = some f → exec (.readPoolEntry tag [b0, b1]) s = .next (s.withResponse tag .ok
        (leBytes 2 n ++ leBytes 2 f ++ leBytes 4 (wearIn s.map.frames f)))) ∧
      (s.map.pool.length ≤ n → exec (.readPoolEntry tag [b0, b1]) s = .next (s.withResponse tag .badArg []))) ∧
    (∀ a g, s.time.active.get b0.toNat = some a → s.time.staged.get b0.toNat = some g →
      exec (.getSetting tag [b0]) s = .next (s.withResponse tag .ok (leBytes 1 b0.toNat ++ leBytes 4 a ++ leBytes 4 g))) ∧
    (b0.toNat = 0 ∨ 10 < b0.toNat → exec (.getSetting tag [b0]) s = .next (s.withResponse tag .badArg [])))

/-- STAGE_SETTING replaces the staged value of an existing setting in its range and is BAD_ARG otherwise; DISCARD_STAGED
copies the active set into the staged one; COMMIT_SETTINGS answers OK with nothing changed on equal sets, installs a
staged set whose LowWater is below its HighWater, and rejects any other with BAD_ARG. -/
def Obligations.SettingCommandsStageCommitAndDiscard : Prop :=
  ∀ (tag id v0 v1 v2 v3 : Byte) (s : State),
    s.unit.state ∈ [.online, .writeProtected, .safe, .unformatted, .failed] →
    ∀ v, v = v0.toNat + 256 * (v1.toNat + 256 * (v2.toNat + 256 * v3.toNat)) →
    (settingInRange id.toNat v = true → exec (.stageSetting tag [id, v0, v1, v2, v3]) s =
      .next { s.withResponse tag .ok [] with time := { s.time with staged := s.time.staged.put id.toNat v } }) ∧
    (settingInRange id.toNat v = false →
      exec (.stageSetting tag [id, v0, v1, v2, v3]) s = .next (s.withResponse tag .badArg [])) ∧
    exec (.discardStaged tag []) s =
      .next { s.withResponse tag .ok [] with time := { s.time with staged := s.time.active } } ∧
    (s.time.staged = s.time.active → exec (.commitSettings tag []) s = .next (settle (s.withResponse tag .ok []))) ∧
    (s.time.staged ≠ s.time.active → s.time.staged.lowWater < s.time.staged.highWater →
      exec (.commitSettings tag []) s = .next (settle { s with
        out := Outputs.none
        time := { s.time with active := s.time.staged }
        buf := { s.buf with
          pressure :=
            if s.buf.pressure = true then decide (s.time.staged.lowWater < s.buf.slots.length)
            else decide (s.time.staged.highWater ≤ s.buf.slots.length) }
        link := { s.flagged .settingsCommitted with response := some ⟨.ok, tag, []⟩ } })) ∧
    (s.time.staged ≠ s.time.active → s.time.staged.highWater ≤ s.time.staged.lowWater →
      exec (.commitSettings tag []) s = .next (settle { s with
        out := Outputs.none
        link := { s.flagged .settingsRejected with response := some ⟨.badArg, tag, []⟩ } }))

/-- SET_FENCE: a volatile value from 1 to L becomes the volatile fence at once (OK), the persistent fence unchanged; a
persistent one replaces the persistent fence, removes the volatile one and hands over FENCE_SET (ACCEPTED), or is BUSY
while the Map Controller holds one; a value out of range is BAD_ARG. In SAFE a persistent choice is BAD_STATE, and a
volatile one is executed while the tables are loaded and BAD_STATE otherwise. A choice that is neither is judged for state
as the volatile one and then BAD_ARG (Table 11.3, log entry 18). -/
def Obligations.SetFenceMovesTheActiveFence : Prop :=
  ∀ (tag b0 b1 choice : Byte) (s : State) (v : Nat), v = b0.toNat + 256 * b1.toNat →
    (s.unit.state = .online ∨ s.unit.state = .writeProtected ∨ (s.unit.state = .safe ∧ s.map.loaded = true) →
      (1 ≤ v → v ≤ s.windowFrames →
        exec (.setFenceVolatile tag [b0, b1, 0#8]) s = .next (settle { s.withResponse tag .ok [] with
          map := { s.map with volatileFence := some v } })) ∧
      (v = 0 ∨ s.windowFrames < v →
        exec (.setFenceVolatile tag [b0, b1, 0#8]) s = .next (settle (s.withResponse tag .badArg []))) ∧
      (choice ≠ 0#8 → choice ≠ 1#8 →
        exec (.setFenceVolatile tag [b0, b1, choice]) s = .next (settle (s.withResponse tag .badArg [])))) ∧
    (s.unit.state = .online ∨ s.unit.state = .writeProtected →
      (1 ≤ v → v ≤ s.windowFrames →
        (s.creatorWaits .mapController = true →
          exec (.setFencePersistent tag [b0, b1, 1#8]) s = .next (settle (s.withResponse tag .busy []))) ∧
        (s.jrn.waiters = [] → s.jrn.staging.length < 16 →
          exec (.setFencePersistent tag [b0, b1, 1#8]) s = .next (settle { s.withResponse tag .accepted [] with
            map := { s.map with fence := v, volatileFence := none }
            jrn := { s.jrn with staging := s.jrn.staging ++ [⟨.mapController, .fenceSet v, none⟩] } }))) ∧
      (v = 0 ∨ s.windowFrames < v →
        exec (.setFencePersistent tag [b0, b1, 1#8]) s = .next (settle (s.withResponse tag .badArg [])))) ∧
    (s.unit.state = .safe →
      exec (.setFencePersistent tag [b0, b1, 1#8]) s = .next (settle (s.withResponse tag .badState []))) ∧
    (s.unit.state = .safe → s.map.loaded = false → choice ≠ 1#8 →
      exec (.setFenceVolatile tag [b0, b1, choice]) s = .next (settle (s.withResponse tag .badState [])))

/-- FLUSH in ONLINE, WRITE_PROTECTED and SAFE sets the flush barrier to the accept sequence, replacing any before it, and
is ACCEPTED, in SAFE with the tables not loaded too (the model's reading, log entry 20); a barrier satisfied at once leaves
FLUSH_DONE raised and no barrier, here where nothing else follows. -/
def Obligations.FlushSetsTheBarrier : Prop :=
  ∀ (tag : Byte) (s u : State), s.unit.state ∈ [.online, .writeProtected, .safe] →
    u = { s.withResponse tag .accepted [] with buf := { s.buf with flush := some s.host.acceptSeq } } →
    exec (.flush tag []) s = .next (settle u) ∧
    (s.quiet = true → s.buf.slots = [] → exec (.flush tag []) s = .next { s.withResponse tag .accepted [] with
      buf := { s.buf with flush := none }
      link := { s.flagged .flushDone with response := some ⟨.accepted, tag, []⟩ } })

/-- REQUEST_MIGRATION in ONLINE and WRITE_PROTECTED: BAD_ARG for a frame at or above L or retire-overdue; ACCEPTED with
nothing changed for a frame queued or moving; ACCEPTED and queued as MANUAL while the queue has room; BUSY otherwise.
ABORT_MIGRATION takes the abort of a migration in QUIESCE or COPY, withdrawing its waiting copy request, is ACCEPTED
again while it is pending, and is BAD_STATE in IDLE and COMMIT_WAIT. Both are BAD_STATE in every other state. -/
def Obligations.MigrationCommandsQueueAndAbort : Prop :=
  (∀ (tag b0 b1 : Byte) (s : State),
    s.unit.state ≠ .reset → s.unit.state ≠ .online → s.unit.state ≠ .writeProtected →
    exec (.requestMigration tag [b0, b1]) s = .next (settle (s.withResponse tag .badState [])) ∧
    exec (.abortMigration tag []) s = .next (settle (s.withResponse tag .badState []))) ∧
  (∀ (tag b0 b1 : Byte) (s : State) (n : Nat), n = b0.toNat + 256 * b1.toNat →
    (s.unit.state = .online ∨ s.unit.state = .writeProtected) →
    (s.map.entries.length ≤ n ∨ s.overdueFrame n = true →
      exec (.requestMigration tag [b0, b1]) s = .next (settle (s.withResponse tag .badArg []))) ∧
    (n < s.map.entries.length → s.overdueFrame n = false →
      (s.mig.isQueued n = true ∨ s.mig.isMoving n = true →
        exec (.requestMigration tag [b0, b1]) s = .next (settle (s.withResponse tag .accepted []))) ∧
      (s.mig.isQueued n = false → s.mig.isMoving n = false →
        (s.mig.queued < 8 → exec (.requestMigration tag [b0, b1]) s =
          .next (settle { s.withResponse tag .accepted [] with
            mig := { s.mig with backQueue := s.mig.backQueue ++ [⟨n, .manual⟩] } })) ∧
        (8 ≤ s.mig.queued →
          exec (.requestMigration tag [b0, b1]) s = .next (settle (s.withResponse tag .busy []))))) ∧
    ((∀ m, s.mig.current = some m → m.phase = .commitWait) →
      exec (.abortMigration tag []) s = .next (settle (s.withResponse tag .badState []))) ∧
    (∀ m, s.mig.current = some m → m.phase ≠ .commitWait →
      (m.abortPending = true →
        exec (.abortMigration tag []) s = .next (settle (s.withResponse tag .accepted []))) ∧
      (m.abortPending = false → s.media.arriving = [] → (∀ r ∈ s.media.waiting, r.cls = .copy ↔ r.requester = .engine) →
        exec (.abortMigration tag []) s = .next (settle { s.withResponse tag .accepted [] with
          mig := { s.mig with current := some { m with abortPending := true } }
          media := { s.media with
            waiting := s.media.waiting.filter fun r => r.requester ≠ .engine
            promoCheckpoint :=
              if ∃ r ∈ s.media.waiting, r.cls = .checkpoint then s.media.promoCheckpoint else 0
            promoCopy := 0 } }))))

/-- CHECKPOINT_NOW in ONLINE and WRITE_PROTECTED starts a checkpoint, not clean, in the area the descriptor does not name,
one sequence on, or is BUSY while one is in progress. PREPARE_OFF and RESTART there enter CLOSING in stage EMPTYING with
the queue emptied and the fail marks removed, RESTART with restart pending; here no request waits.
The position, image and counts of a checkpoint that starts, which the image fix sets, stand at 0 or empty until then (the
model's choice, log entry 41). -/
def Obligations.CheckpointNowAndClosingBegin : Prop :=
  ∀ (tag : Byte) (s : State), (s.unit.state = .online ∨ s.unit.state = .writeProtected) →
    (s.jrn.checkpoint ≠ none →
      exec (.checkpointNow tag []) s = .next (settle (s.withResponse tag .busy []))) ∧
    (∀ d, s.jrn.checkpoint = none → s.jrn.descriptor = some d → exec (.checkpointNow tag []) s =
      .next (settle { s.withResponse tag .accepted [] with
        jrn := { s.jrn with
          checkpoint := some {
            phase := .starting, area := if d.area = .a then .b else .a, seq := d.seq + 1, posSeq := 0#32, posSlot := 0
            clean := false, linesWritten := 0, image := Image.none, imageCheck := 0#32, slotsTaken := 0 } } })) ∧
    ((∀ e ∈ s.host.entries, e.standing ≠ .waiting) →
      ∀ (closing : Bool → State), (∀ restart, closing restart = { s with
        out := Outputs.none
        unit := { s.unit with state := .closing, stage := some .emptying, restartPending := restart }
        map := { s.map with entries := s.map.entries.map fun e => { e with failMark := false } }
        mig := { s.mig with retireQueue := [], backQueue := [] }
        link := { s.flagged .stateChanged with response := some ⟨.accepted, tag, []⟩ } }) →
      exec (.prepareOff tag []) s = .next (settle (closing false)) ∧
      exec (.restart tag []) s = .next (settle (closing true)))

/-- RESUME in SAFE with origin PREPARE_OFF and the warning not asserted hands over OPEN, here to a staging queue with room,
and enters ONLINE, or WRITE_PROTECTED with the latch set, answered OK; in every other case it is BAD_STATE. RESTART in SAFE, UNFORMATTED and FAILED, the warning not asserted, makes
the volatile reset: every block at its hard-reset value but the pending response and the straps, and recovery begins.
STATE_CHANGED stands after it, raised by the entry to RECOVERING (the model's choice, log entry 16). -/
def Obligations.ResumeAndRestartLeaveSafe : Prop :=
  (∀ (tag : Byte) (s : State), s.unit.state ≠ .reset →
    (s.unit.state ≠ .safe ∨ s.unit.safeOrigin ≠ some .prepareOff ∨ s.unit.holdUp = true) →
    exec (.resume tag []) s = .next (settle (s.withResponse tag .badState []))) ∧
  (∀ (tag : Byte) (s : State), s.unit.holdUp = false →
    (s.unit.state = .safe → s.unit.safeOrigin = some .prepareOff → s.jrn.waiters = [] → s.jrn.staging.length < 16 →
      exec (.resume tag []) s = .next (settle { s with
        out := Outputs.none
        unit := { s.unit with
          state := if s.map.latch = true then .writeProtected else .online, safeOrigin := none }
        jrn := { s.jrn with staging := s.jrn.staging ++ [⟨.unitControl, .opened, none⟩] }
        link := { s.flagged .stateChanged with response := some ⟨.ok, tag, []⟩ } })) ∧
    (s.unit.state ∈ [.safe, .unformatted, .failed] → exec (.restart tag []) s = .next (settle { State.reset with
      out := { Outputs.none with mediaDiscard := true }
      pending := s.pending
      unit := { State.reset.unit with
        state := .recovering, sizeStraps := s.unit.sizeStraps, addrStraps := s.unit.addrStraps
        recovery := some recoveryStart }
      media := { MediaPort.empty with arriving := [unitRequest .read 0] }
      link := ⟨some ⟨.accepted, tag, []⟩, Event.stateChanged.flag, 0#17⟩ })))

/-- FORMAT in UNFORMATTED, FAILED and SAFE with origin PREPARE_OFF, the warning not asserted: BAD_ARG for arguments out of
range, BUSY in SAFE while the Media Port holds an operation; otherwise ACCEPTED, with the clearing of R146, FORMATTING
entered and the read of the old geometry record requested. A RetireWear of 0 selects 640,000,000. In any other state, and
while the warning is asserted, it is BAD_STATE.
The new format count, 1 until that read decides it, is the model's choice (log entry 41), and so is the image check's start
at 0 (log entry 8). -/
def Obligations.FormatClearsAndBegins : Prop :=
  (∀ (tag s0 s1 w0 w1 w2 w3 : Byte) (s : State), s.unit.state ≠ .reset →
    (s.unit.holdUp = true ∨ (s.unit.state ≠ .unformatted ∧ s.unit.state ≠ .failed ∧
      (s.unit.state ≠ .safe ∨ s.unit.safeOrigin ≠ some .prepareOff))) →
    exec (.format tag [s0, s1, w0, w1, w2, w3]) s = .next (settle (s.withResponse tag .badState []))) ∧
  (∀ (tag s0 s1 w0 w1 w2 w3 : Byte) (s : State) (spares wear : Nat), s.unit.holdUp = false →
    (s.unit.state = .unformatted ∨ s.unit.state = .failed ∨
      (s.unit.state = .safe ∧ s.unit.safeOrigin = some .prepareOff)) →
    spares = s0.toNat + 256 * s1.toNat →
    wear = w0.toNat + 256 * (w1.toNat + 256 * (w2.toNat + 256 * w3.toNat)) →
    ∀ (ok : Prop), (ok ↔ 16 ≤ spares ∧ spares ≤ 4096 ∧ spares ≤ (s.unit.sizeStraps.toNat + 1) * 1024 / 8 ∧
      (wear = 0 ∨ 65536 ≤ wear)) →
    (¬ok → exec (.format tag [s0, s1, w0, w1, w2, w3]) s = .next (settle (s.withResponse tag .badArg []))) ∧
    (ok → s.unit.state = .safe → (s.media.inflight ≠ [] ∨ s.media.waiting ≠ []) →
      exec (.format tag [s0, s1, w0, w1, w2, w3]) s = .next (settle (s.withResponse tag .busy []))) ∧
    (ok → (s.unit.state = .safe → s.media.waiting = [] ∧ s.media.inflight = []) → s.media.arriving = [] →
      exec (.format tag [s0, s1, w0, w1, w2, w3]) s = .next (settle { s with
        out := Outputs.none
        unit := { s.unit with
          state := .formatting, safeOrigin := none, standing := none, failCause := none, restartPending := false
          stage := none, geometry := none, recovery := none
          format := some
            { spares := spares, retireWear := if wear = 0 then 640000000 else wear, step := .oldRecord, newCount := 1,
              imageCheck := 0#32 } }
        buf := { slots := [], drains := [], pressure := false, flush := none }
        map := MapController.unloaded
        mig := { current := none, retireQueue := [], backQueue := [], lastResult := none, levelCheck := none }
        jrn := JournalController.empty
        health := { s.health with spareLow := false, lifeHigh := false }
        media := { s.media with arriving := [unitRequest .read 0] }
        link := { s.flagged .stateChanged with response := some ⟨.accepted, tag, []⟩ } })))

/-- CLEAR_EVENTS clears the flags of its mask and leaves the others, SET_EVENT_ENABLE replaces the enables by its mask, in
every state but RESET, mask bits 17 to 31 ignored; the attention output follows the flags that are set and enabled. -/
def Obligations.EventCommandsActOnTheirOwnBits : Prop :=
  ∀ (tag m0 m1 m2 m3 : Byte) (s : State), s.unit.state ≠ .reset →
    ∀ mask, mask = BitVec.ofNat 17 (m0.toNat + 256 * (m1.toNat + 256 * (m2.toNat + 256 * m3.toNat))) →
    (∃ t, exec (.clearEvents tag [m0, m1, m2, m3]) s = .next t ∧
      t = { s with
        out := Outputs.none, link := ⟨some ⟨.ok, tag, []⟩, s.link.flags &&& ~~~mask, s.link.enables⟩ } ∧
      (∀ i, t.link.flags.getLsbD i = (s.link.flags.getLsbD i && !mask.getLsbD i))) ∧
    (∃ t, exec (.setEventEnable tag [m0, m1, m2, m3]) s = .next t ∧
      t = { s with out := Outputs.none, link := ⟨some ⟨.ok, tag, []⟩, s.link.flags, mask⟩ } ∧
      (t.attention = true ↔ ∃ i, s.link.flags.getLsbD i = true ∧ mask.getLsbD i = true))

/-- What is not executed: BAD_CRC for a transfer that is not well formed, its second byte echoed, UNKNOWN_COMMAND for a code
that names none, BAD_ARG for a parameter length other than the command's, and then BAD_STATE for every state-changing
command in DRAIN_LOCK, CLOSING, RECOVERING and FORMATTING. The pending response is replaced and nothing else changes, from
a state in which no follow-up event is enabled. In RESET nothing is answered. -/
def Obligations.RefusedRequestsChangeOnlyTheResponse : Prop :=
  ∀ (s : State), s.quiet = true →
    (s.unit.state ≠ .reset →
      (∀ bytes, wellFormedTransfer bytes = false →
        exec (.requestNotWellFormed bytes) s = .next (s.withResponse (bytes[1]?.getD 0#8) .badCrc [])) ∧
      (∀ code tag params, knownCode code = false →
        exec (.unknownCommand code tag params) s = .next (s.withResponse tag .unknownCommand [])) ∧
      (∀ c tag params n, linkFields c = some (tag, params) → paramLength c = some n → params.length ≠ n →
        exec c s = .next (s.withResponse tag .badArg [])) ∧
      (∀ c tag params, stateChanging c = true → linkFields c = some (tag, params) →
        paramLength c = some params.length →
        s.unit.state ∈ [.drainLock, .closing, .recovering, .formatting] →
        exec c s = .next (s.withResponse tag .badState []))) ∧
    (s.unit.state = .reset → ∀ c, fromLink c = true → exec c s = .next { s with out := Outputs.none })

/-- RESPONSE_READ returns the pending response from its status byte, 0xFF past its CRC-8; with none pending the message
07 00 00 16. Reading the CRC-8 byte consumes the response; a shorter read leaves it pending. -/
def Obligations.ResponseReadConsumesAtItsCrc : Prop :=
  ∀ (n : Nat) (s : State), s.unit.state ≠ .reset →
    ∀ (message : List Byte),
    message = (match s.link.response with
      | some r =>
        let body := r.status.code :: r.tag :: BitVec.ofNat 8 r.results.length :: r.results
        body ++ [crc8 body]
      | none => [0x07#8, 0x00#8, 0x00#8, 0x16#8]) →
    exec (.responseRead n) s = .next { s with
      out := { Outputs.none with
        link := (List.range n).map fun i => message[i]?.getD 0xFF#8 }
      link := { s.link with response := if message.length ≤ n then none else s.link.response } }

/-- For every link command in the form a request message can carry, every unknown code and every transfer that is not well
formed, reading back the bytes it is sent as gives the command itself. -/
def Obligations.DecodedTransferIsTheEncodedCommand : Prop :=
  ∀ (i : Instr) (bytes : List Byte), linkWf i = true → encodeTransfer i = some bytes → decodeTransfer bytes = i

/-- The worked bytes of R182, and the values of Tables 1.1 and 1.3: the request of GET_STATUS with tag 0 and the message of
NO_RESPONSE, and the geometry figures and regions of the reference configuration. -/
def Obligations.WorkedFiguresOfTheManual : Prop :=
  encodeTransfer (.getStatus 0x00#8 []) = some [0x01#8, 0x00#8, 0x00#8, 0x6B#8] ∧
  decodeTransfer [0x01#8, 0x00#8, 0x00#8, 0x6B#8] = .getStatus 0x00#8 [] ∧
  responseMessage 0x07#8 0x00#8 [] = [0x07#8, 0x00#8, 0x00#8, 0x16#8] ∧
  strapsNP 15#6 = 16384 ∧ areaFrames 16384 = 81 ∧ metaFrames 16384 = 195 ∧
  logicalCount ⟨16384, 512, 640000000, 1⟩ = 15677 ∧ slotLine 16384 0 = 10432 ∧ slotLine 16384 2047 = 12479 ∧
  headerLine 16384 .a = 64 ∧ headerLine 16384 .b = 5248 ∧ imageLines 16384 = 5120 ∧
  (strapsNP 0#6, metaFrames 1024, maxSpares 1024) = (1024, 45, 128) ∧
  (strapsNP 63#6, metaFrames 65536, maxSpares 65536) = (65536, 675, 4096)
end

