-- ==== Sys2Proof/Laws/Ecc.lean ====
section
/-! SUPPORT. What the decoder's search can do (R64, R71): it finds the code word within 4 bits of the stored bits, or none where none lies so near; and stored bits of each kind exist. -/

namespace Sys2Proof.Machine

/-! ### Bits of a line -/

/-- Bit p of a line: bit p mod 8 of byte p / 8. -/
def bitOf (d : LineData) (p : Nat) : Bool := if h : p / 8 < 64 then (d[p / 8]).getLsbD (p % 8) else false

theorem bitOf_ext {a b : LineData} (h : ∀ p, p < 512 → bitOf a p = bitOf b p) : a = b := by
  apply Vector.ext
  intro i hi
  apply BitVec.eq_of_getLsbD_eq
  intro j hj
  have := h (8 * i + j) (by omega)
  have h1 : (8 * i + j) / 8 = i := by omega
  have h2 : (8 * i + j) % 8 = j := by omega
  simpa [bitOf, h1, h2, hi] using this

theorem bitOf_flip (p q : Nat) (d : LineData) (hq : q < 512) :
    bitOf (flipBits [p] d) q = (bitOf d q ^^ decide (q = p)) := by
  have h : q / 8 < 64 := by omega
  simp only [bitOf, h, dif_pos, flipBits, List.foldl_cons, List.foldl_nil, Vector.getElem_ofFn]
  split
  · rename_i he
    simp only [Fin.getElem_fin, BitVec.getLsbD_xor, BitVec.getLsbD_shiftLeft]
    have hq8 : q % 8 < 8 := by omega
    by_cases hp : q = p
    · subst hp; simp [hq8]
    · have : q % 8 ≠ p % 8 := by omega
      simp only [hp, decide_false, Bool.xor_false]
      rcases Nat.lt_or_gt_of_ne this with hlt | hgt
      · simp [hlt]
      · have hn : ¬ q % 8 < p % 8 := by omega
        have hs : q % 8 - p % 8 ≠ 0 := by omega
        simp [hn, hs]
  · rename_i he
    have : q ≠ p := by rintro rfl; exact he rfl
    simp [this]

theorem flipBits_cons (p : Nat) (e : List Nat) (d : LineData) : flipBits (p :: e) d = flipBits e (flipBits [p] d) := by
  simp only [flipBits, List.foldl_cons, List.foldl_nil]

/-- Inverting data bits inverts just them. -/
theorem bitOf_flipBits (e : List Nat) (d : LineData) (q : Nat) (hn : e.Nodup) (hq : q < 512) :
    bitOf (flipBits e d) q = (bitOf d q ^^ decide (q ∈ e)) := by
  induction e generalizing d with
  | nil => simp [flipBits]
  | cons p e ih =>
    rw [List.nodup_cons] at hn
    rw [flipBits_cons, ih _ hn.2, bitOf_flip p q d hq]
    by_cases h : q = p
    · subst h; simp [hn.1]
    · simp [h]

/-! ### Bits in error, data and check bits apart -/

/-- The data bits in which two lines differ. -/
def dataErrors (a b : LineData) : List Nat := (List.range 512).filter fun p => bitOf a p != bitOf b p

theorem countP_range_bytes (P : Nat → Bool) (n : Nat) : (List.range (8 * n)).countP P =
    ((List.range n).map fun i => (List.range 8).countP fun j => P (8 * i + j)).sum := by
  induction n with
  | zero => rfl
  | succ n ih =>
    rw [show 8 * (n + 1) = 8 * n + 8 by omega, List.range_add, List.countP_append, ih,
      List.range_succ (n := n), List.map_append, List.sum_append, List.countP_map]
    simp only [Function.comp_def, List.map_cons, List.map_nil, List.sum_singleton]

theorem dataErrors_nodup (a b : LineData) : (dataErrors a b).Nodup := List.Nodup.filter _ List.nodup_range

theorem dataErrors_length (a b : LineData) :
    (List.zipWith byteErrors a.toList b.toList).sum = (dataErrors a b).length := by
  rw [dataErrors, ← List.countP_eq_length_filter, show (512 : Nat) = 8 * 64 from rfl, countP_range_bytes]
  congr 1
  apply List.ext_getElem (by simp)
  intro i h1 h2
  have hi : i < 64 := by simpa using h1
  simp only [List.getElem_zipWith, List.getElem_map, List.getElem_range, byteErrors]
  apply List.countP_congr
  intro j hj
  have hj : j < 8 := by simpa using hj
  have h3 : (8 * i + j) / 8 = i := by omega
  have h4 : (8 * i + j) % 8 = j := by omega
  simp [bitOf, h3, h4, hi]

theorem flipBits_dataErrors (a b : LineData) : flipBits (dataErrors a b) b = a := by
  apply bitOf_ext
  intro p hp
  rw [bitOf_flipBits _ _ _ (dataErrors_nodup _ _) hp]
  have : p ∈ dataErrors a b ↔ bitOf a p ≠ bitOf b p := by simp [dataErrors, hp]
  by_cases h : bitOf a p = bitOf b p
  · simp [this, h]
  · simp only [this, ne_eq, h, not_false_eq_true, decide_true, Bool.xor_true]
    cases ha : bitOf a p <;> cases hb : bitOf b p <;> simp_all

/-- Bits in error are data bits and check bits together (R64). -/
theorem errorsFrom_eq (d : LineData) (w : Stored) : errorsFrom d w = (dataErrors d w.data).length +
    (List.zipWith byteErrors (eccCheckBytes d) (w.checkBytes Config.eccCode.checkCount)).sum := by
  rw [errorsFrom, bitErrors, List.zipWith_append (by simp), List.sum_append, dataErrors_length]
  rfl

/-! ### The search -/

/-- No stored bits lie within 4 bits of two code words (R71). -/
theorem errorsFrom_unique {a b : LineData} {w : Stored} (ha : errorsFrom a w ≤ 4) (hb : errorsFrom b w ≤ 4) : a = b :=
  Config.eccCode.corrects w a b ha hb

/-- What the search finds is the line of a code word within 4 bits. -/
theorem correction_some {w : Stored} {e : List Nat} (h : correction w = some e) : errorsFrom (flipBits e w.data) w ≤ 4 := by
  obtain ⟨k, -, hk⟩ := List.exists_of_findSome?_eq_some h
  simpa using List.find?_some hk

/-- The search finds the code word within 4 bits of the stored bits, where there is one. -/
theorem correction_of_near {d : LineData} {w : Stored} (h : errorsFrom d w ≤ 4) :
    ∃ e, correction w = some e ∧ flipBits e w.data = d := by
  cases hc : correction w with
  | some e => exact ⟨e, rfl, errorsFrom_unique (correction_some hc) h⟩
  | none =>
    exfalso
    simp only [correction, List.findSome?_eq_none_iff] at hc
    have hl : (dataErrors d w.data).length ≤ 4 := by rw [errorsFrom_eq] at h; omega
    have hm := hc (dataErrors d w.data).length (List.mem_range.mpr (by omega))
    rw [List.find?_eq_none] at hm
    refine hm (dataErrors d w.data) (List.mem_sublistsLen.mpr ⟨List.filter_sublist, rfl⟩) ?_
    rw [flipBits_dataErrors]
    exact decide_eq_true h

/-- The search finds nothing where no code word lies within 4 bits. -/
theorem correction_of_far {w : Stored} (h : ∀ d, 4 < errorsFrom d w) : correction w = none := by
  cases hc : correction w with
  | none => rfl
  | some e => exact absurd (correction_some hc) (by have := h (flipBits e w.data); omega)

/-! ### Stored bits of each kind -/

theorem byteErrors_self (b : Byte) : byteErrors b b = 0 := by simp [byteErrors]

/-- The first n check bytes of n check bytes. -/
theorem checkBytes_codeWord (d : LineData) (x : LineData) :
    Stored.checkBytes { data := x, check := eccCheckBytes d } Config.eccCode.checkCount = eccCheckBytes d := by
  apply List.ext_getElem (by simp [Stored.checkBytes, eccCheckBytes])
  intro i h1 h2
  have hi : i < Config.eccCode.checkCount := by simpa [eccCheckBytes] using h2
  simp [Stored.checkBytes, eccCheckBytes, hi]

theorem byteErrors_zipWith_self (l : List Byte) : (List.zipWith byteErrors l l).sum = 0 := by
  induction l with
  | nil => rfl
  | cons b l ih => simp [byteErrors_self]

/-- With some data bits of a line's code word inverted, so many bits are in error. -/
theorem errorsFrom_flipped (d : LineData) (e : List Nat) (he : List.Sublist e (List.range 512)) :
    errorsFrom d { codeWord d with data := flipBits e d } = e.length := by
  have hn := he.nodup List.nodup_range
  rw [errorsFrom_eq]
  simp only [codeWord, checkBytes_codeWord, byteErrors_zipWith_self, Nat.add_zero]
  have : (dataErrors d (flipBits e d)).Perm e := by
    rw [List.perm_ext_iff_of_nodup (dataErrors_nodup _ _) hn]
    intro p
    rw [dataErrors, List.mem_filter, List.mem_range]
    constructor
    · rintro ⟨hp, h⟩
      rw [bitOf_flipBits e d p hn hp] at h
      by_contra hpe
      simp [hpe] at h
    · intro hpe
      have hp : p < 512 := by simpa using he.mem hpe
      refine ⟨hp, ?_⟩
      rw [bitOf_flipBits e d p hn hp]
      simp [hpe]
  exact this.length_eq

/-- A code word has no bit in error from its own line (R65). -/
theorem errorsFrom_codeWord (d : LineData) : errorsFrom d (codeWord d) = 0 :=
  errorsFrom_flipped d [] (List.nil_sublist _)

/-- Some stored bits lie within 4 bits of no code word (R71). -/
theorem exists_uncorrectable : ∃ w : Stored, ∀ d, 4 < errorsFrom d w := Config.eccCode.unrelated

end Sys2Proof.Machine
end

