-- ==== Sys2Proof/Laws/State.lean ====
section
/-! SUPPORT. One lemma per block per block update of State, each true by rfl: no later proof unfolds a record update. -/

namespace Sys2Proof.Machine

variable (s : State)

@[simp] theorem State.setUnit_unit (x : UnitControl) : (s.setUnit x).unit = x := rfl
@[simp] theorem State.setUnit_time (x : UnitControl) : (s.setUnit x).time = s.time := rfl
@[simp] theorem State.setUnit_host (x : UnitControl) : (s.setUnit x).host = s.host := rfl
@[simp] theorem State.setUnit_buf (x : UnitControl) : (s.setUnit x).buf = s.buf := rfl
@[simp] theorem State.setUnit_map (x : UnitControl) : (s.setUnit x).map = s.map := rfl
@[simp] theorem State.setUnit_mig (x : UnitControl) : (s.setUnit x).mig = s.mig := rfl
@[simp] theorem State.setUnit_media (x : UnitControl) : (s.setUnit x).media = s.media := rfl
@[simp] theorem State.setUnit_jrn (x : UnitControl) : (s.setUnit x).jrn = s.jrn := rfl
@[simp] theorem State.setUnit_health (x : UnitControl) : (s.setUnit x).health = s.health := rfl
@[simp] theorem State.setUnit_link (x : UnitControl) : (s.setUnit x).link = s.link := rfl
@[simp] theorem State.setUnit_out (x : UnitControl) : (s.setUnit x).out = s.out := rfl
@[simp] theorem State.setUnit_pending (x : UnitControl) : (s.setUnit x).pending = s.pending := rfl

@[simp] theorem State.setTime_unit (x : TimeBase) : (s.setTime x).unit = s.unit := rfl
@[simp] theorem State.setTime_time (x : TimeBase) : (s.setTime x).time = x := rfl
@[simp] theorem State.setTime_host (x : TimeBase) : (s.setTime x).host = s.host := rfl
@[simp] theorem State.setTime_buf (x : TimeBase) : (s.setTime x).buf = s.buf := rfl
@[simp] theorem State.setTime_map (x : TimeBase) : (s.setTime x).map = s.map := rfl
@[simp] theorem State.setTime_mig (x : TimeBase) : (s.setTime x).mig = s.mig := rfl
@[simp] theorem State.setTime_media (x : TimeBase) : (s.setTime x).media = s.media := rfl
@[simp] theorem State.setTime_jrn (x : TimeBase) : (s.setTime x).jrn = s.jrn := rfl
@[simp] theorem State.setTime_health (x : TimeBase) : (s.setTime x).health = s.health := rfl
@[simp] theorem State.setTime_link (x : TimeBase) : (s.setTime x).link = s.link := rfl
@[simp] theorem State.setTime_out (x : TimeBase) : (s.setTime x).out = s.out := rfl
@[simp] theorem State.setTime_pending (x : TimeBase) : (s.setTime x).pending = s.pending := rfl

@[simp] theorem State.setHost_unit (x : HostPort) : (s.setHost x).unit = s.unit := rfl
@[simp] theorem State.setHost_time (x : HostPort) : (s.setHost x).time = s.time := rfl
@[simp] theorem State.setHost_host (x : HostPort) : (s.setHost x).host = x := rfl
@[simp] theorem State.setHost_buf (x : HostPort) : (s.setHost x).buf = s.buf := rfl
@[simp] theorem State.setHost_map (x : HostPort) : (s.setHost x).map = s.map := rfl
@[simp] theorem State.setHost_mig (x : HostPort) : (s.setHost x).mig = s.mig := rfl
@[simp] theorem State.setHost_media (x : HostPort) : (s.setHost x).media = s.media := rfl
@[simp] theorem State.setHost_jrn (x : HostPort) : (s.setHost x).jrn = s.jrn := rfl
@[simp] theorem State.setHost_health (x : HostPort) : (s.setHost x).health = s.health := rfl
@[simp] theorem State.setHost_link (x : HostPort) : (s.setHost x).link = s.link := rfl
@[simp] theorem State.setHost_out (x : HostPort) : (s.setHost x).out = s.out := rfl
@[simp] theorem State.setHost_pending (x : HostPort) : (s.setHost x).pending = s.pending := rfl

@[simp] theorem State.setBuf_unit (x : AbsorbBuffer) : (s.setBuf x).unit = s.unit := rfl
@[simp] theorem State.setBuf_time (x : AbsorbBuffer) : (s.setBuf x).time = s.time := rfl
@[simp] theorem State.setBuf_host (x : AbsorbBuffer) : (s.setBuf x).host = s.host := rfl
@[simp] theorem State.setBuf_buf (x : AbsorbBuffer) : (s.setBuf x).buf = x := rfl
@[simp] theorem State.setBuf_map (x : AbsorbBuffer) : (s.setBuf x).map = s.map := rfl
@[simp] theorem State.setBuf_mig (x : AbsorbBuffer) : (s.setBuf x).mig = s.mig := rfl
@[simp] theorem State.setBuf_media (x : AbsorbBuffer) : (s.setBuf x).media = s.media := rfl
@[simp] theorem State.setBuf_jrn (x : AbsorbBuffer) : (s.setBuf x).jrn = s.jrn := rfl
@[simp] theorem State.setBuf_health (x : AbsorbBuffer) : (s.setBuf x).health = s.health := rfl
@[simp] theorem State.setBuf_link (x : AbsorbBuffer) : (s.setBuf x).link = s.link := rfl
@[simp] theorem State.setBuf_out (x : AbsorbBuffer) : (s.setBuf x).out = s.out := rfl
@[simp] theorem State.setBuf_pending (x : AbsorbBuffer) : (s.setBuf x).pending = s.pending := rfl

@[simp] theorem State.setMap_unit (x : MapController) : (s.setMap x).unit = s.unit := rfl
@[simp] theorem State.setMap_time (x : MapController) : (s.setMap x).time = s.time := rfl
@[simp] theorem State.setMap_host (x : MapController) : (s.setMap x).host = s.host := rfl
@[simp] theorem State.setMap_buf (x : MapController) : (s.setMap x).buf = s.buf := rfl
@[simp] theorem State.setMap_map (x : MapController) : (s.setMap x).map = x := rfl
@[simp] theorem State.setMap_mig (x : MapController) : (s.setMap x).mig = s.mig := rfl
@[simp] theorem State.setMap_media (x : MapController) : (s.setMap x).media = s.media := rfl
@[simp] theorem State.setMap_jrn (x : MapController) : (s.setMap x).jrn = s.jrn := rfl
@[simp] theorem State.setMap_health (x : MapController) : (s.setMap x).health = s.health := rfl
@[simp] theorem State.setMap_link (x : MapController) : (s.setMap x).link = s.link := rfl
@[simp] theorem State.setMap_out (x : MapController) : (s.setMap x).out = s.out := rfl
@[simp] theorem State.setMap_pending (x : MapController) : (s.setMap x).pending = s.pending := rfl

@[simp] theorem State.setMig_unit (x : MigrationEngine) : (s.setMig x).unit = s.unit := rfl
@[simp] theorem State.setMig_time (x : MigrationEngine) : (s.setMig x).time = s.time := rfl
@[simp] theorem State.setMig_host (x : MigrationEngine) : (s.setMig x).host = s.host := rfl
@[simp] theorem State.setMig_buf (x : MigrationEngine) : (s.setMig x).buf = s.buf := rfl
@[simp] theorem State.setMig_map (x : MigrationEngine) : (s.setMig x).map = s.map := rfl
@[simp] theorem State.setMig_mig (x : MigrationEngine) : (s.setMig x).mig = x := rfl
@[simp] theorem State.setMig_media (x : MigrationEngine) : (s.setMig x).media = s.media := rfl
@[simp] theorem State.setMig_jrn (x : MigrationEngine) : (s.setMig x).jrn = s.jrn := rfl
@[simp] theorem State.setMig_health (x : MigrationEngine) : (s.setMig x).health = s.health := rfl
@[simp] theorem State.setMig_link (x : MigrationEngine) : (s.setMig x).link = s.link := rfl
@[simp] theorem State.setMig_out (x : MigrationEngine) : (s.setMig x).out = s.out := rfl
@[simp] theorem State.setMig_pending (x : MigrationEngine) : (s.setMig x).pending = s.pending := rfl

@[simp] theorem State.setMedia_unit (x : MediaPort) : (s.setMedia x).unit = s.unit := rfl
@[simp] theorem State.setMedia_time (x : MediaPort) : (s.setMedia x).time = s.time := rfl
@[simp] theorem State.setMedia_host (x : MediaPort) : (s.setMedia x).host = s.host := rfl
@[simp] theorem State.setMedia_buf (x : MediaPort) : (s.setMedia x).buf = s.buf := rfl
@[simp] theorem State.setMedia_map (x : MediaPort) : (s.setMedia x).map = s.map := rfl
@[simp] theorem State.setMedia_mig (x : MediaPort) : (s.setMedia x).mig = s.mig := rfl
@[simp] theorem State.setMedia_media (x : MediaPort) : (s.setMedia x).media = x := rfl
@[simp] theorem State.setMedia_jrn (x : MediaPort) : (s.setMedia x).jrn = s.jrn := rfl
@[simp] theorem State.setMedia_health (x : MediaPort) : (s.setMedia x).health = s.health := rfl
@[simp] theorem State.setMedia_link (x : MediaPort) : (s.setMedia x).link = s.link := rfl
@[simp] theorem State.setMedia_out (x : MediaPort) : (s.setMedia x).out = s.out := rfl
@[simp] theorem State.setMedia_pending (x : MediaPort) : (s.setMedia x).pending = s.pending := rfl

@[simp] theorem State.setJrn_unit (x : JournalController) : (s.setJrn x).unit = s.unit := rfl
@[simp] theorem State.setJrn_time (x : JournalController) : (s.setJrn x).time = s.time := rfl
@[simp] theorem State.setJrn_host (x : JournalController) : (s.setJrn x).host = s.host := rfl
@[simp] theorem State.setJrn_buf (x : JournalController) : (s.setJrn x).buf = s.buf := rfl
@[simp] theorem State.setJrn_map (x : JournalController) : (s.setJrn x).map = s.map := rfl
@[simp] theorem State.setJrn_mig (x : JournalController) : (s.setJrn x).mig = s.mig := rfl
@[simp] theorem State.setJrn_media (x : JournalController) : (s.setJrn x).media = s.media := rfl
@[simp] theorem State.setJrn_jrn (x : JournalController) : (s.setJrn x).jrn = x := rfl
@[simp] theorem State.setJrn_health (x : JournalController) : (s.setJrn x).health = s.health := rfl
@[simp] theorem State.setJrn_link (x : JournalController) : (s.setJrn x).link = s.link := rfl
@[simp] theorem State.setJrn_out (x : JournalController) : (s.setJrn x).out = s.out := rfl
@[simp] theorem State.setJrn_pending (x : JournalController) : (s.setJrn x).pending = s.pending := rfl

@[simp] theorem State.setHealth_unit (x : HealthMonitor) : (s.setHealth x).unit = s.unit := rfl
@[simp] theorem State.setHealth_time (x : HealthMonitor) : (s.setHealth x).time = s.time := rfl
@[simp] theorem State.setHealth_host (x : HealthMonitor) : (s.setHealth x).host = s.host := rfl
@[simp] theorem State.setHealth_buf (x : HealthMonitor) : (s.setHealth x).buf = s.buf := rfl
@[simp] theorem State.setHealth_map (x : HealthMonitor) : (s.setHealth x).map = s.map := rfl
@[simp] theorem State.setHealth_mig (x : HealthMonitor) : (s.setHealth x).mig = s.mig := rfl
@[simp] theorem State.setHealth_media (x : HealthMonitor) : (s.setHealth x).media = s.media := rfl
@[simp] theorem State.setHealth_jrn (x : HealthMonitor) : (s.setHealth x).jrn = s.jrn := rfl
@[simp] theorem State.setHealth_health (x : HealthMonitor) : (s.setHealth x).health = x := rfl
@[simp] theorem State.setHealth_link (x : HealthMonitor) : (s.setHealth x).link = s.link := rfl
@[simp] theorem State.setHealth_out (x : HealthMonitor) : (s.setHealth x).out = s.out := rfl
@[simp] theorem State.setHealth_pending (x : HealthMonitor) : (s.setHealth x).pending = s.pending := rfl

@[simp] theorem State.setLink_unit (x : ManagementLink) : (s.setLink x).unit = s.unit := rfl
@[simp] theorem State.setLink_time (x : ManagementLink) : (s.setLink x).time = s.time := rfl
@[simp] theorem State.setLink_host (x : ManagementLink) : (s.setLink x).host = s.host := rfl
@[simp] theorem State.setLink_buf (x : ManagementLink) : (s.setLink x).buf = s.buf := rfl
@[simp] theorem State.setLink_map (x : ManagementLink) : (s.setLink x).map = s.map := rfl
@[simp] theorem State.setLink_mig (x : ManagementLink) : (s.setLink x).mig = s.mig := rfl
@[simp] theorem State.setLink_media (x : ManagementLink) : (s.setLink x).media = s.media := rfl
@[simp] theorem State.setLink_jrn (x : ManagementLink) : (s.setLink x).jrn = s.jrn := rfl
@[simp] theorem State.setLink_health (x : ManagementLink) : (s.setLink x).health = s.health := rfl
@[simp] theorem State.setLink_link (x : ManagementLink) : (s.setLink x).link = x := rfl
@[simp] theorem State.setLink_out (x : ManagementLink) : (s.setLink x).out = s.out := rfl
@[simp] theorem State.setLink_pending (x : ManagementLink) : (s.setLink x).pending = s.pending := rfl

@[simp] theorem State.setOut_unit (x : Outputs) : (s.setOut x).unit = s.unit := rfl
@[simp] theorem State.setOut_time (x : Outputs) : (s.setOut x).time = s.time := rfl
@[simp] theorem State.setOut_host (x : Outputs) : (s.setOut x).host = s.host := rfl
@[simp] theorem State.setOut_buf (x : Outputs) : (s.setOut x).buf = s.buf := rfl
@[simp] theorem State.setOut_map (x : Outputs) : (s.setOut x).map = s.map := rfl
@[simp] theorem State.setOut_mig (x : Outputs) : (s.setOut x).mig = s.mig := rfl
@[simp] theorem State.setOut_media (x : Outputs) : (s.setOut x).media = s.media := rfl
@[simp] theorem State.setOut_jrn (x : Outputs) : (s.setOut x).jrn = s.jrn := rfl
@[simp] theorem State.setOut_health (x : Outputs) : (s.setOut x).health = s.health := rfl
@[simp] theorem State.setOut_link (x : Outputs) : (s.setOut x).link = s.link := rfl
@[simp] theorem State.setOut_out (x : Outputs) : (s.setOut x).out = x := rfl
@[simp] theorem State.setOut_pending (x : Outputs) : (s.setOut x).pending = s.pending := rfl

@[simp] theorem State.setPending_unit (x : List Instr) : (s.setPending x).unit = s.unit := rfl
@[simp] theorem State.setPending_time (x : List Instr) : (s.setPending x).time = s.time := rfl
@[simp] theorem State.setPending_host (x : List Instr) : (s.setPending x).host = s.host := rfl
@[simp] theorem State.setPending_buf (x : List Instr) : (s.setPending x).buf = s.buf := rfl
@[simp] theorem State.setPending_map (x : List Instr) : (s.setPending x).map = s.map := rfl
@[simp] theorem State.setPending_mig (x : List Instr) : (s.setPending x).mig = s.mig := rfl
@[simp] theorem State.setPending_media (x : List Instr) : (s.setPending x).media = s.media := rfl
@[simp] theorem State.setPending_jrn (x : List Instr) : (s.setPending x).jrn = s.jrn := rfl
@[simp] theorem State.setPending_health (x : List Instr) : (s.setPending x).health = s.health := rfl
@[simp] theorem State.setPending_link (x : List Instr) : (s.setPending x).link = s.link := rfl
@[simp] theorem State.setPending_out (x : List Instr) : (s.setPending x).out = s.out := rfl
@[simp] theorem State.setPending_pending (x : List Instr) : (s.setPending x).pending = x := rfl

end Sys2Proof.Machine
end

