-- ==== Sys2Proof/Laws/Frames.lean ====
section
/-! SUPPORT. For every operation, the blocks it leaves as they are: a proof about a command cites these in place of unfolding the operation. -/

namespace Sys2Proof.Machine

/-- A fold of updates that each keep a projection keeps it. -/
theorem keep_foldl {α β : Type} (P : State → β) (f : State → α → State) (h : ∀ u a, P (f u a) = P u) (l : List α)
    (s : State) : P (l.foldl f s) = P s := by
  induction l generalizing s with
  | nil => rfl
  | cons a l ih => rw [List.foldl_cons, ih, h]

/-! ### Flags -/

@[simp] theorem raise_frame (e : Event) (s : State) :
    (raise e s).unit = s.unit ∧ (raise e s).time = s.time ∧ (raise e s).host = s.host ∧ (raise e s).buf = s.buf ∧
    (raise e s).map = s.map ∧ (raise e s).mig = s.mig ∧ (raise e s).media = s.media ∧ (raise e s).jrn = s.jrn ∧
    (raise e s).health = s.health ∧ (raise e s).out = s.out ∧ (raise e s).pending = s.pending ∧
    (raise e s).link.enables = s.link.enables ∧ (raise e s).link.response = s.link.response := by
  unfold raise
  try dsimp only
  all_goals simp

/-! ### Ops -/

@[simp] theorem enterState_frame (st : UnitState) (s : State) :
    (enterState st s).time = s.time ∧ (enterState st s).host = s.host ∧ (enterState st s).buf = s.buf ∧
    (enterState st s).map = s.map ∧ (enterState st s).mig = s.mig ∧ (enterState st s).media = s.media ∧
    (enterState st s).jrn = s.jrn ∧ (enterState st s).health = s.health ∧ (enterState st s).out = s.out ∧
    (enterState st s).pending = s.pending ∧ (enterState st s).link.enables = s.link.enables ∧
    (enterState st s).link.response = s.link.response := by
  unfold enterState
  try dsimp only
  all_goals simp

@[simp] theorem beginHappening_frame (s : State) :
    (beginHappening s).unit = s.unit ∧ (beginHappening s).time = s.time ∧ (beginHappening s).host = s.host ∧
    (beginHappening s).buf = s.buf ∧ (beginHappening s).map = s.map ∧ (beginHappening s).mig = s.mig ∧
    (beginHappening s).media = s.media ∧ (beginHappening s).jrn = s.jrn ∧ (beginHappening s).health = s.health ∧
    (beginHappening s).link = s.link ∧ (beginHappening s).pending = s.pending := by
  unfold beginHappening
  try dsimp only
  all_goals simp

@[simp] theorem sendHost_frame (tag : BitVec 5) (code : HostCode) (data : LineData) (s : State) :
    (sendHost tag code data s).unit = s.unit ∧ (sendHost tag code data s).time = s.time ∧
    (sendHost tag code data s).host = s.host ∧ (sendHost tag code data s).buf = s.buf ∧
    (sendHost tag code data s).map = s.map ∧ (sendHost tag code data s).mig = s.mig ∧
    (sendHost tag code data s).media = s.media ∧ (sendHost tag code data s).jrn = s.jrn ∧
    (sendHost tag code data s).health = s.health ∧ (sendHost tag code data s).link = s.link ∧
    (sendHost tag code data s).pending = s.pending := by
  unfold sendHost
  try dsimp only
  repeat' split
  all_goals simp

@[simp] theorem sendAttempt_frame (op : InFlight) (s : State) :
    (sendAttempt op s).unit = s.unit ∧ (sendAttempt op s).time = s.time ∧ (sendAttempt op s).host = s.host ∧
    (sendAttempt op s).buf = s.buf ∧ (sendAttempt op s).map = s.map ∧ (sendAttempt op s).mig = s.mig ∧
    (sendAttempt op s).media = s.media ∧ (sendAttempt op s).jrn = s.jrn ∧ (sendAttempt op s).health = s.health ∧
    (sendAttempt op s).link = s.link ∧ (sendAttempt op s).pending = s.pending := by
  unfold sendAttempt
  try dsimp only
  all_goals simp

@[simp] theorem respond_frame (tag : Byte) (status : Status) (results : List Byte) (s : State) :
    (respond tag status results s).unit = s.unit ∧ (respond tag status results s).time = s.time ∧
    (respond tag status results s).host = s.host ∧ (respond tag status results s).buf = s.buf ∧
    (respond tag status results s).map = s.map ∧ (respond tag status results s).mig = s.mig ∧
    (respond tag status results s).media = s.media ∧ (respond tag status results s).jrn = s.jrn ∧
    (respond tag status results s).health = s.health ∧ (respond tag status results s).out = s.out ∧
    (respond tag status results s).pending = s.pending ∧
    (respond tag status results s).link.enables = s.link.enables := by
  unfold respond
  try dsimp only
  repeat' split
  all_goals simp

@[simp] theorem bumpHealth_frame (f : HealthMonitor → HealthMonitor) (s : State) :
    (bumpHealth f s).unit = s.unit ∧ (bumpHealth f s).time = s.time ∧ (bumpHealth f s).host = s.host ∧
    (bumpHealth f s).buf = s.buf ∧ (bumpHealth f s).map = s.map ∧ (bumpHealth f s).mig = s.mig ∧
    (bumpHealth f s).media = s.media ∧ (bumpHealth f s).jrn = s.jrn ∧ (bumpHealth f s).link = s.link ∧
    (bumpHealth f s).out = s.out ∧ (bumpHealth f s).pending = s.pending := by
  unfold bumpHealth
  try dsimp only
  all_goals simp

/-! ### Map -/

@[simp] theorem updEntry_frame (logical : Nat) (f : MapEntry → MapEntry) (s : State) :
    (updEntry logical f s).unit = s.unit ∧ (updEntry logical f s).time = s.time ∧
    (updEntry logical f s).host = s.host ∧ (updEntry logical f s).buf = s.buf ∧
    (updEntry logical f s).mig = s.mig ∧ (updEntry logical f s).media = s.media ∧
    (updEntry logical f s).jrn = s.jrn ∧ (updEntry logical f s).health = s.health ∧
    (updEntry logical f s).link = s.link ∧ (updEntry logical f s).out = s.out ∧
    (updEntry logical f s).pending = s.pending := by
  unfold updEntry
  try dsimp only
  all_goals simp

@[simp] theorem updFrame_frame (physical : Nat) (f : FrameRecord → FrameRecord) (s : State) :
    (updFrame physical f s).unit = s.unit ∧ (updFrame physical f s).time = s.time ∧
    (updFrame physical f s).host = s.host ∧ (updFrame physical f s).buf = s.buf ∧
    (updFrame physical f s).mig = s.mig ∧ (updFrame physical f s).media = s.media ∧
    (updFrame physical f s).jrn = s.jrn ∧ (updFrame physical f s).health = s.health ∧
    (updFrame physical f s).link = s.link ∧ (updFrame physical f s).out = s.out ∧
    (updFrame physical f s).pending = s.pending := by
  unfold updFrame
  try dsimp only
  all_goals simp

@[simp] theorem updMig_frame (f : Migration → Migration) (s : State) :
    (updMig f s).unit = s.unit ∧ (updMig f s).time = s.time ∧ (updMig f s).host = s.host ∧
    (updMig f s).buf = s.buf ∧ (updMig f s).map = s.map ∧ (updMig f s).media = s.media ∧
    (updMig f s).jrn = s.jrn ∧ (updMig f s).health = s.health ∧ (updMig f s).link = s.link ∧
    (updMig f s).out = s.out ∧ (updMig f s).pending = s.pending := by
  unfold updMig
  try dsimp only
  all_goals simp

@[simp] theorem setPoison_frame (line : Nat) (v : Bool) (s : State) :
    (setPoison line v s).unit = s.unit ∧ (setPoison line v s).time = s.time ∧ (setPoison line v s).host = s.host ∧
    (setPoison line v s).buf = s.buf ∧ (setPoison line v s).media = s.media ∧ (setPoison line v s).jrn = s.jrn ∧
    (setPoison line v s).health = s.health ∧ (setPoison line v s).link = s.link ∧
    (setPoison line v s).out = s.out ∧ (setPoison line v s).pending = s.pending := by
  unfold setPoison
  try dsimp only
  repeat' split
  all_goals simp

@[simp] theorem setMigrationMark_frame (logical : Nat) (v : Bool) (s : State) :
    (setMigrationMark logical v s).unit = s.unit ∧ (setMigrationMark logical v s).time = s.time ∧
    (setMigrationMark logical v s).host = s.host ∧ (setMigrationMark logical v s).buf = s.buf ∧
    (setMigrationMark logical v s).mig = s.mig ∧ (setMigrationMark logical v s).media = s.media ∧
    (setMigrationMark logical v s).jrn = s.jrn ∧ (setMigrationMark logical v s).health = s.health ∧
    (setMigrationMark logical v s).link = s.link ∧ (setMigrationMark logical v s).out = s.out ∧
    (setMigrationMark logical v s).pending = s.pending := by
  unfold setMigrationMark
  try dsimp only
  all_goals simp

@[simp] theorem setFailMark_frame (logical : Nat) (v : Bool) (s : State) :
    (setFailMark logical v s).unit = s.unit ∧ (setFailMark logical v s).time = s.time ∧
    (setFailMark logical v s).host = s.host ∧ (setFailMark logical v s).buf = s.buf ∧
    (setFailMark logical v s).mig = s.mig ∧ (setFailMark logical v s).media = s.media ∧
    (setFailMark logical v s).jrn = s.jrn ∧ (setFailMark logical v s).health = s.health ∧
    (setFailMark logical v s).link = s.link ∧ (setFailMark logical v s).out = s.out ∧
    (setFailMark logical v s).pending = s.pending := by
  unfold setFailMark
  try dsimp only
  all_goals simp

@[simp] theorem removeFailMarks_frame (s : State) :
    (removeFailMarks s).unit = s.unit ∧ (removeFailMarks s).time = s.time ∧ (removeFailMarks s).host = s.host ∧
    (removeFailMarks s).buf = s.buf ∧ (removeFailMarks s).mig = s.mig ∧ (removeFailMarks s).media = s.media ∧
    (removeFailMarks s).jrn = s.jrn ∧ (removeFailMarks s).health = s.health ∧ (removeFailMarks s).link = s.link ∧
    (removeFailMarks s).out = s.out ∧ (removeFailMarks s).pending = s.pending := by
  unfold removeFailMarks
  try dsimp only
  all_goals simp

@[simp] theorem removeHoldMarks_frame (s : State) :
    (removeHoldMarks s).unit = s.unit ∧ (removeHoldMarks s).time = s.time ∧ (removeHoldMarks s).host = s.host ∧
    (removeHoldMarks s).buf = s.buf ∧ (removeHoldMarks s).mig = s.mig ∧ (removeHoldMarks s).media = s.media ∧
    (removeHoldMarks s).jrn = s.jrn ∧ (removeHoldMarks s).health = s.health ∧ (removeHoldMarks s).link = s.link ∧
    (removeHoldMarks s).out = s.out ∧ (removeHoldMarks s).pending = s.pending := by
  unfold removeHoldMarks
  try dsimp only
  all_goals simp

@[simp] theorem joinPool_frame (f : Nat) (s : State) :
    (joinPool f s).unit = s.unit ∧ (joinPool f s).time = s.time ∧ (joinPool f s).host = s.host ∧
    (joinPool f s).buf = s.buf ∧ (joinPool f s).mig = s.mig ∧ (joinPool f s).media = s.media ∧
    (joinPool f s).jrn = s.jrn ∧ (joinPool f s).health = s.health ∧ (joinPool f s).link = s.link ∧
    (joinPool f s).out = s.out ∧ (joinPool f s).pending = s.pending := by
  unfold joinPool
  try dsimp only
  all_goals simp

@[simp] theorem retireFrame_frame (f : Nat) (s : State) :
    (retireFrame f s).unit = s.unit ∧ (retireFrame f s).time = s.time ∧ (retireFrame f s).host = s.host ∧
    (retireFrame f s).buf = s.buf ∧ (retireFrame f s).mig = s.mig ∧ (retireFrame f s).media = s.media ∧
    (retireFrame f s).jrn = s.jrn ∧ (retireFrame f s).health = s.health ∧ (retireFrame f s).link = s.link ∧
    (retireFrame f s).out = s.out ∧ (retireFrame f s).pending = s.pending := by
  unfold retireFrame
  try dsimp only
  all_goals simp

@[simp] theorem takeTarget_frame (f : Nat) (rest : List Nat) (logical : Nat) (s : State) :
    (takeTarget f rest logical s).unit = s.unit ∧ (takeTarget f rest logical s).time = s.time ∧
    (takeTarget f rest logical s).host = s.host ∧ (takeTarget f rest logical s).buf = s.buf ∧
    (takeTarget f rest logical s).mig = s.mig ∧ (takeTarget f rest logical s).media = s.media ∧
    (takeTarget f rest logical s).jrn = s.jrn ∧ (takeTarget f rest logical s).health = s.health ∧
    (takeTarget f rest logical s).link = s.link ∧ (takeTarget f rest logical s).out = s.out ∧
    (takeTarget f rest logical s).pending = s.pending := by
  unfold takeTarget
  try dsimp only
  all_goals simp

@[simp] theorem loadTables_frame (t : Tables) (s : State) :
    (loadTables t s).unit = s.unit ∧ (loadTables t s).time = s.time ∧ (loadTables t s).host = s.host ∧
    (loadTables t s).buf = s.buf ∧ (loadTables t s).mig = s.mig ∧ (loadTables t s).media = s.media ∧
    (loadTables t s).jrn = s.jrn ∧ (loadTables t s).health = s.health ∧ (loadTables t s).link = s.link ∧
    (loadTables t s).out = s.out ∧ (loadTables t s).pending = s.pending := by
  unfold loadTables
  try dsimp only
  all_goals simp

@[simp] theorem unloadTables_frame (s : State) :
    (unloadTables s).unit = s.unit ∧ (unloadTables s).time = s.time ∧ (unloadTables s).host = s.host ∧
    (unloadTables s).buf = s.buf ∧ (unloadTables s).mig = s.mig ∧ (unloadTables s).media = s.media ∧
    (unloadTables s).jrn = s.jrn ∧ (unloadTables s).health = s.health ∧ (unloadTables s).link = s.link ∧
    (unloadTables s).out = s.out ∧ (unloadTables s).pending = s.pending := by
  unfold unloadTables
  try dsimp only
  all_goals simp

/-! ### Media -/

@[simp] theorem request_frame (r : MediaRequest) (s : State) :
    (request r s).unit = s.unit ∧ (request r s).time = s.time ∧ (request r s).host = s.host ∧
    (request r s).buf = s.buf ∧ (request r s).map = s.map ∧ (request r s).mig = s.mig ∧
    (request r s).jrn = s.jrn ∧ (request r s).health = s.health ∧ (request r s).link = s.link ∧
    (request r s).out = s.out ∧ (request r s).pending = s.pending := by
  unfold request
  try dsimp only
  repeat' split
  all_goals simp

@[simp] theorem joinWaiting_frame (s : State) :
    (joinWaiting s).unit = s.unit ∧ (joinWaiting s).time = s.time ∧ (joinWaiting s).host = s.host ∧
    (joinWaiting s).buf = s.buf ∧ (joinWaiting s).map = s.map ∧ (joinWaiting s).mig = s.mig ∧
    (joinWaiting s).jrn = s.jrn ∧ (joinWaiting s).health = s.health ∧ (joinWaiting s).link = s.link ∧
    (joinWaiting s).out = s.out ∧ (joinWaiting s).pending = s.pending := by
  unfold joinWaiting
  try dsimp only
  all_goals simp

theorem grantOne_frame (s : State) {t : State} (h : grantOne s = some t) :
    t.unit = s.unit ∧ t.time = s.time ∧ t.host = s.host ∧ t.buf = s.buf ∧ t.map = s.map ∧ t.mig = s.mig ∧
    t.jrn = s.jrn ∧ t.health = s.health ∧ t.link = s.link ∧ t.pending = s.pending := by
  unfold grantOne at h
  repeat' split at h
  all_goals first | contradiction | (simp only [Option.some.injEq] at h; subst h; simp)

@[simp] theorem grantUpTo_frame (n : Nat) (s : State) :
    (grantUpTo n s).unit = s.unit ∧ (grantUpTo n s).time = s.time ∧ (grantUpTo n s).host = s.host ∧
    (grantUpTo n s).buf = s.buf ∧ (grantUpTo n s).map = s.map ∧ (grantUpTo n s).mig = s.mig ∧
    (grantUpTo n s).jrn = s.jrn ∧ (grantUpTo n s).health = s.health ∧ (grantUpTo n s).link = s.link ∧
    (grantUpTo n s).pending = s.pending := by
  induction n generalizing s with
  | zero => simp [grantUpTo]
  | succ n ih =>
    unfold grantUpTo
    split
    · rename_i t h
      simp [ih, grantOne_frame s h]
    · simp
@[simp] theorem grantAll_frame (s : State) :
    (grantAll s).unit = s.unit ∧ (grantAll s).time = s.time ∧ (grantAll s).host = s.host ∧
    (grantAll s).buf = s.buf ∧ (grantAll s).map = s.map ∧ (grantAll s).mig = s.mig ∧ (grantAll s).jrn = s.jrn ∧
    (grantAll s).health = s.health ∧ (grantAll s).link = s.link ∧ (grantAll s).pending = s.pending := by
  simp [grantAll]

@[simp] theorem freePlaceOf_frame (id : AttemptId) (s : State) :
    (freePlaceOf id s).unit = s.unit ∧ (freePlaceOf id s).time = s.time ∧ (freePlaceOf id s).host = s.host ∧
    (freePlaceOf id s).buf = s.buf ∧ (freePlaceOf id s).map = s.map ∧ (freePlaceOf id s).mig = s.mig ∧
    (freePlaceOf id s).jrn = s.jrn ∧ (freePlaceOf id s).health = s.health ∧ (freePlaceOf id s).link = s.link ∧
    (freePlaceOf id s).out = s.out ∧ (freePlaceOf id s).pending = s.pending := by
  unfold freePlaceOf
  try dsimp only
  all_goals simp

@[simp] theorem recordError_frame (op : InFlight) (event : MediaEvent) (bits : Nat) (s : State) :
    (recordError op event bits s).unit = s.unit ∧ (recordError op event bits s).time = s.time ∧
    (recordError op event bits s).host = s.host ∧ (recordError op event bits s).buf = s.buf ∧
    (recordError op event bits s).map = s.map ∧ (recordError op event bits s).mig = s.mig ∧
    (recordError op event bits s).jrn = s.jrn ∧ (recordError op event bits s).health = s.health ∧
    (recordError op event bits s).link = s.link ∧ (recordError op event bits s).out = s.out ∧
    (recordError op event bits s).pending = s.pending := by
  unfold recordError
  try dsimp only
  all_goals simp

@[simp] theorem retryAttempt_frame (op : InFlight) (s : State) :
    (retryAttempt op s).unit = s.unit ∧ (retryAttempt op s).time = s.time ∧ (retryAttempt op s).host = s.host ∧
    (retryAttempt op s).buf = s.buf ∧ (retryAttempt op s).map = s.map ∧ (retryAttempt op s).mig = s.mig ∧
    (retryAttempt op s).jrn = s.jrn ∧ (retryAttempt op s).health = s.health ∧ (retryAttempt op s).link = s.link ∧
    (retryAttempt op s).pending = s.pending := by
  unfold retryAttempt
  try dsimp only
  all_goals simp

@[simp] theorem withdraw_frame (p : MediaRequest → Bool) (s : State) :
    (withdraw p s).unit = s.unit ∧ (withdraw p s).time = s.time ∧ (withdraw p s).host = s.host ∧
    (withdraw p s).buf = s.buf ∧ (withdraw p s).map = s.map ∧ (withdraw p s).mig = s.mig ∧
    (withdraw p s).jrn = s.jrn ∧ (withdraw p s).health = s.health ∧ (withdraw p s).link = s.link ∧
    (withdraw p s).out = s.out ∧ (withdraw p s).pending = s.pending := by
  unfold withdraw
  try dsimp only
  repeat' split
  all_goals simp

@[simp] theorem endWithoutResult_frame (s : State) :
    (endWithoutResult s).unit = s.unit ∧ (endWithoutResult s).time = s.time ∧ (endWithoutResult s).host = s.host ∧
    (endWithoutResult s).buf = s.buf ∧ (endWithoutResult s).map = s.map ∧ (endWithoutResult s).mig = s.mig ∧
    (endWithoutResult s).jrn = s.jrn ∧ (endWithoutResult s).health = s.health ∧
    (endWithoutResult s).link = s.link ∧ (endWithoutResult s).out = s.out ∧
    (endWithoutResult s).pending = s.pending := by
  unfold endWithoutResult
  try dsimp only
  all_goals simp

@[simp] theorem orphanCheckpoint_frame (s : State) :
    (orphanCheckpoint s).unit = s.unit ∧ (orphanCheckpoint s).time = s.time ∧ (orphanCheckpoint s).host = s.host ∧
    (orphanCheckpoint s).buf = s.buf ∧ (orphanCheckpoint s).map = s.map ∧ (orphanCheckpoint s).mig = s.mig ∧
    (orphanCheckpoint s).jrn = s.jrn ∧ (orphanCheckpoint s).health = s.health ∧
    (orphanCheckpoint s).link = s.link ∧ (orphanCheckpoint s).out = s.out ∧
    (orphanCheckpoint s).pending = s.pending := by
  unfold orphanCheckpoint
  try dsimp only
  all_goals simp

@[simp] theorem abandonUnitWork_frame (s : State) :
    (abandonUnitWork s).unit = s.unit ∧ (abandonUnitWork s).time = s.time ∧ (abandonUnitWork s).host = s.host ∧
    (abandonUnitWork s).buf = s.buf ∧ (abandonUnitWork s).map = s.map ∧ (abandonUnitWork s).mig = s.mig ∧
    (abandonUnitWork s).jrn = s.jrn ∧ (abandonUnitWork s).health = s.health ∧ (abandonUnitWork s).link = s.link ∧
    (abandonUnitWork s).out = s.out ∧ (abandonUnitWork s).pending = s.pending := by
  unfold abandonUnitWork
  try dsimp only
  all_goals simp

/-! ### Buffer -/

@[simp] theorem updSlot_frame (line : Nat) (f : Slot → Slot) (s : State) :
    (updSlot line f s).unit = s.unit ∧ (updSlot line f s).time = s.time ∧ (updSlot line f s).host = s.host ∧
    (updSlot line f s).map = s.map ∧ (updSlot line f s).mig = s.mig ∧ (updSlot line f s).media = s.media ∧
    (updSlot line f s).jrn = s.jrn ∧ (updSlot line f s).health = s.health ∧ (updSlot line f s).link = s.link ∧
    (updSlot line f s).out = s.out ∧ (updSlot line f s).pending = s.pending := by
  unfold updSlot
  try dsimp only
  all_goals simp

@[simp] theorem updDrain_frame (place : Fin 4) (f : Drain → Drain) (s : State) :
    (updDrain place f s).unit = s.unit ∧ (updDrain place f s).time = s.time ∧ (updDrain place f s).host = s.host ∧
    (updDrain place f s).map = s.map ∧ (updDrain place f s).mig = s.mig ∧ (updDrain place f s).media = s.media ∧
    (updDrain place f s).jrn = s.jrn ∧ (updDrain place f s).health = s.health ∧
    (updDrain place f s).link = s.link ∧ (updDrain place f s).out = s.out ∧
    (updDrain place f s).pending = s.pending := by
  unfold updDrain
  try dsimp only
  all_goals simp

@[simp] theorem endDrain_frame (place : Fin 4) (s : State) :
    (endDrain place s).unit = s.unit ∧ (endDrain place s).time = s.time ∧ (endDrain place s).host = s.host ∧
    (endDrain place s).map = s.map ∧ (endDrain place s).mig = s.mig ∧ (endDrain place s).media = s.media ∧
    (endDrain place s).jrn = s.jrn ∧ (endDrain place s).health = s.health ∧ (endDrain place s).link = s.link ∧
    (endDrain place s).out = s.out ∧ (endDrain place s).pending = s.pending := by
  unfold endDrain
  try dsimp only
  all_goals simp

@[simp] theorem evalPressure_frame (s : State) :
    (evalPressure s).unit = s.unit ∧ (evalPressure s).time = s.time ∧ (evalPressure s).host = s.host ∧
    (evalPressure s).map = s.map ∧ (evalPressure s).mig = s.mig ∧ (evalPressure s).media = s.media ∧
    (evalPressure s).jrn = s.jrn ∧ (evalPressure s).health = s.health ∧ (evalPressure s).link = s.link ∧
    (evalPressure s).out = s.out ∧ (evalPressure s).pending = s.pending := by
  unfold evalPressure
  try dsimp only
  all_goals simp

@[simp] theorem takeSlot_frame (line : Nat) (mask : Flags64) (data : LineData) (seq : Word32) (s : State) :
    (takeSlot line mask data seq s).unit = s.unit ∧ (takeSlot line mask data seq s).time = s.time ∧
    (takeSlot line mask data seq s).host = s.host ∧ (takeSlot line mask data seq s).map = s.map ∧
    (takeSlot line mask data seq s).mig = s.mig ∧ (takeSlot line mask data seq s).media = s.media ∧
    (takeSlot line mask data seq s).jrn = s.jrn ∧ (takeSlot line mask data seq s).health = s.health ∧
    (takeSlot line mask data seq s).link = s.link ∧ (takeSlot line mask data seq s).out = s.out ∧
    (takeSlot line mask data seq s).pending = s.pending := by
  unfold takeSlot
  try dsimp only
  all_goals simp

@[simp] theorem mergeWrite_frame (line : Nat) (mask : Flags64) (data : LineData) (seq : Word32) (s : State) :
    (mergeWrite line mask data seq s).unit = s.unit ∧ (mergeWrite line mask data seq s).time = s.time ∧
    (mergeWrite line mask data seq s).host = s.host ∧ (mergeWrite line mask data seq s).map = s.map ∧
    (mergeWrite line mask data seq s).mig = s.mig ∧ (mergeWrite line mask data seq s).media = s.media ∧
    (mergeWrite line mask data seq s).jrn = s.jrn ∧ (mergeWrite line mask data seq s).health = s.health ∧
    (mergeWrite line mask data seq s).link = s.link ∧ (mergeWrite line mask data seq s).out = s.out ∧
    (mergeWrite line mask data seq s).pending = s.pending := by
  unfold mergeWrite
  try dsimp only
  all_goals simp

@[simp] theorem freeSlot_frame (line : Nat) (s : State) :
    (freeSlot line s).unit = s.unit ∧ (freeSlot line s).time = s.time ∧ (freeSlot line s).host = s.host ∧
    (freeSlot line s).map = s.map ∧ (freeSlot line s).mig = s.mig ∧ (freeSlot line s).media = s.media ∧
    (freeSlot line s).jrn = s.jrn ∧ (freeSlot line s).health = s.health ∧ (freeSlot line s).link = s.link ∧
    (freeSlot line s).out = s.out ∧ (freeSlot line s).pending = s.pending := by
  unfold freeSlot
  try dsimp only
  all_goals simp

@[simp] theorem issueDrain_frame (p : Fin 4) (sl : Slot) (s : State) :
    (issueDrain p sl s).unit = s.unit ∧ (issueDrain p sl s).time = s.time ∧ (issueDrain p sl s).host = s.host ∧
    (issueDrain p sl s).map = s.map ∧ (issueDrain p sl s).mig = s.mig ∧ (issueDrain p sl s).jrn = s.jrn ∧
    (issueDrain p sl s).health = s.health ∧ (issueDrain p sl s).link = s.link ∧ (issueDrain p sl s).out = s.out ∧
    (issueDrain p sl s).pending = s.pending := by
  unfold issueDrain
  try dsimp only
  repeat' split
  all_goals simp

theorem drainIssue?_frame (s : State) {t : State} (h : drainIssue? s = some t) :
    t.unit = s.unit ∧ t.time = s.time ∧ t.host = s.host ∧ t.map = s.map ∧ t.mig = s.mig ∧ t.jrn = s.jrn ∧
    t.health = s.health ∧ t.link = s.link ∧ t.out = s.out ∧ t.pending = s.pending := by
  unfold drainIssue? at h
  repeat' split at h
  all_goals first | contradiction | (simp only [Option.some.injEq] at h; subst h; simp)

@[simp] theorem finishSlot_frame (line : Nat) (s : State) :
    (finishSlot line s).unit = s.unit ∧ (finishSlot line s).time = s.time ∧ (finishSlot line s).host = s.host ∧
    (finishSlot line s).map = s.map ∧ (finishSlot line s).mig = s.mig ∧ (finishSlot line s).media = s.media ∧
    (finishSlot line s).jrn = s.jrn ∧ (finishSlot line s).health = s.health ∧ (finishSlot line s).link = s.link ∧
    (finishSlot line s).out = s.out ∧ (finishSlot line s).pending = s.pending := by
  unfold finishSlot
  try dsimp only
  repeat' split
  all_goals simp

/-! ### HostPort -/

@[simp] theorem addEntry_frame (e : TagEntry) (s : State) :
    (addEntry e s).unit = s.unit ∧ (addEntry e s).time = s.time ∧ (addEntry e s).buf = s.buf ∧
    (addEntry e s).map = s.map ∧ (addEntry e s).mig = s.mig ∧ (addEntry e s).media = s.media ∧
    (addEntry e s).jrn = s.jrn ∧ (addEntry e s).health = s.health ∧ (addEntry e s).link = s.link ∧
    (addEntry e s).out = s.out ∧ (addEntry e s).pending = s.pending := by
  unfold addEntry
  try dsimp only
  all_goals simp

@[simp] theorem removeEntry_frame (tag : BitVec 5) (s : State) :
    (removeEntry tag s).unit = s.unit ∧ (removeEntry tag s).time = s.time ∧ (removeEntry tag s).buf = s.buf ∧
    (removeEntry tag s).map = s.map ∧ (removeEntry tag s).mig = s.mig ∧ (removeEntry tag s).media = s.media ∧
    (removeEntry tag s).jrn = s.jrn ∧ (removeEntry tag s).health = s.health ∧ (removeEntry tag s).link = s.link ∧
    (removeEntry tag s).out = s.out ∧ (removeEntry tag s).pending = s.pending := by
  unfold removeEntry
  try dsimp only
  all_goals simp

@[simp] theorem setStanding_frame (tag : BitVec 5) (st : TagStanding) (s : State) :
    (setStanding tag st s).unit = s.unit ∧ (setStanding tag st s).time = s.time ∧
    (setStanding tag st s).buf = s.buf ∧ (setStanding tag st s).map = s.map ∧ (setStanding tag st s).mig = s.mig ∧
    (setStanding tag st s).media = s.media ∧ (setStanding tag st s).jrn = s.jrn ∧
    (setStanding tag st s).health = s.health ∧ (setStanding tag st s).link = s.link ∧
    (setStanding tag st s).out = s.out ∧ (setStanding tag st s).pending = s.pending := by
  unfold setStanding
  try dsimp only
  all_goals simp

@[simp] theorem answer_frame (tag : BitVec 5) (code : HostCode) (data : LineData) (s : State) :
    (answer tag code data s).unit = s.unit ∧ (answer tag code data s).time = s.time ∧
    (answer tag code data s).buf = s.buf ∧ (answer tag code data s).map = s.map ∧
    (answer tag code data s).mig = s.mig ∧ (answer tag code data s).media = s.media ∧
    (answer tag code data s).jrn = s.jrn ∧ (answer tag code data s).health = s.health ∧
    (answer tag code data s).link = s.link ∧ (answer tag code data s).pending = s.pending := by
  unfold answer
  try dsimp only
  all_goals simp

@[simp] theorem releaseHeld_frame (s : State) :
    (releaseHeld s).unit = s.unit ∧ (releaseHeld s).time = s.time ∧ (releaseHeld s).buf = s.buf ∧
    (releaseHeld s).map = s.map ∧ (releaseHeld s).mig = s.mig ∧ (releaseHeld s).media = s.media ∧
    (releaseHeld s).jrn = s.jrn ∧ (releaseHeld s).health = s.health ∧ (releaseHeld s).link = s.link ∧
    (releaseHeld s).pending = s.pending :=
  ⟨keep_foldl (fun x : State => x.unit) _ (fun u a => by simp) _ _,
   keep_foldl (fun x : State => x.time) _ (fun u a => by simp) _ _,
   keep_foldl (fun x : State => x.buf) _ (fun u a => by simp) _ _,
   keep_foldl (fun x : State => x.map) _ (fun u a => by simp) _ _,
   keep_foldl (fun x : State => x.mig) _ (fun u a => by simp) _ _,
   keep_foldl (fun x : State => x.media) _ (fun u a => by simp) _ _,
   keep_foldl (fun x : State => x.jrn) _ (fun u a => by simp) _ _,
   keep_foldl (fun x : State => x.health) _ (fun u a => by simp) _ _,
   keep_foldl (fun x : State => x.link) _ (fun u a => by simp) _ _,
   keep_foldl (fun x : State => x.pending) _ (fun u a => by simp) _ _⟩

@[simp] theorem answerRead_frame (tag : BitVec 5) (code : HostCode) (data : LineData) (s : State) :
    (answerRead tag code data s).unit = s.unit ∧ (answerRead tag code data s).time = s.time ∧
    (answerRead tag code data s).buf = s.buf ∧ (answerRead tag code data s).map = s.map ∧
    (answerRead tag code data s).mig = s.mig ∧ (answerRead tag code data s).media = s.media ∧
    (answerRead tag code data s).jrn = s.jrn ∧ (answerRead tag code data s).health = s.health ∧
    (answerRead tag code data s).link = s.link ∧ (answerRead tag code data s).pending = s.pending := by
  unfold answerRead
  try dsimp only
  all_goals simp

@[simp] theorem serveRead_frame (tag : BitVec 5) (line : Nat) (s : State) :
    (serveRead tag line s).unit = s.unit ∧ (serveRead tag line s).time = s.time ∧
    (serveRead tag line s).buf = s.buf ∧ (serveRead tag line s).map = s.map ∧ (serveRead tag line s).mig = s.mig ∧
    (serveRead tag line s).jrn = s.jrn ∧ (serveRead tag line s).health = s.health ∧
    (serveRead tag line s).link = s.link ∧ (serveRead tag line s).pending = s.pending := by
  unfold serveRead
  try dsimp only
  repeat' split
  all_goals simp

@[simp] theorem decideAfterLoss_frame (tag : BitVec 5) (line : Nat) (s : State) :
    (decideAfterLoss tag line s).unit = s.unit ∧ (decideAfterLoss tag line s).time = s.time ∧
    (decideAfterLoss tag line s).buf = s.buf ∧ (decideAfterLoss tag line s).map = s.map ∧
    (decideAfterLoss tag line s).mig = s.mig ∧ (decideAfterLoss tag line s).media = s.media ∧
    (decideAfterLoss tag line s).jrn = s.jrn ∧ (decideAfterLoss tag line s).health = s.health ∧
    (decideAfterLoss tag line s).link = s.link ∧ (decideAfterLoss tag line s).pending = s.pending := by
  unfold decideAfterLoss
  try dsimp only
  repeat' split
  all_goals simp

@[simp] theorem endLossWaits_frame (line : Nat) (s : State) :
    (endLossWaits line s).unit = s.unit ∧ (endLossWaits line s).time = s.time ∧
    (endLossWaits line s).buf = s.buf ∧ (endLossWaits line s).map = s.map ∧ (endLossWaits line s).mig = s.mig ∧
    (endLossWaits line s).media = s.media ∧ (endLossWaits line s).jrn = s.jrn ∧
    (endLossWaits line s).health = s.health ∧ (endLossWaits line s).link = s.link ∧
    (endLossWaits line s).pending = s.pending :=
  ⟨keep_foldl (fun x : State => x.unit) _ (fun u e => by simp) _ _,
   keep_foldl (fun x : State => x.time) _ (fun u e => by simp) _ _,
   keep_foldl (fun x : State => x.buf) _ (fun u e => by simp) _ _,
   keep_foldl (fun x : State => x.map) _ (fun u e => by simp) _ _,
   keep_foldl (fun x : State => x.mig) _ (fun u e => by simp) _ _,
   keep_foldl (fun x : State => x.media) _ (fun u e => by simp) _ _,
   keep_foldl (fun x : State => x.jrn) _ (fun u e => by simp) _ _,
   keep_foldl (fun x : State => x.health) _ (fun u e => by simp) _ _,
   keep_foldl (fun x : State => x.link) _ (fun u e => by simp) _ _,
   keep_foldl (fun x : State => x.pending) _ (fun u e => by simp) _ _⟩

@[simp] theorem returnRead_frame (tag : BitVec 5) (line : Nat) (outcome : ReadOutcome LineData) (s : State) :
    (returnRead tag line outcome s).unit = s.unit ∧ (returnRead tag line outcome s).time = s.time ∧
    (returnRead tag line outcome s).buf = s.buf ∧ (returnRead tag line outcome s).map = s.map ∧
    (returnRead tag line outcome s).mig = s.mig ∧ (returnRead tag line outcome s).media = s.media ∧
    (returnRead tag line outcome s).jrn = s.jrn ∧ (returnRead tag line outcome s).health = s.health ∧
    (returnRead tag line outcome s).link = s.link ∧ (returnRead tag line outcome s).pending = s.pending := by
  unfold returnRead
  try dsimp only
  repeat' split
  all_goals simp

@[simp] theorem finishWrite_frame (tag : BitVec 5) (line : Nat) (s : State) :
    (finishWrite tag line s).unit = s.unit ∧ (finishWrite tag line s).time = s.time ∧
    (finishWrite tag line s).buf = s.buf ∧ (finishWrite tag line s).map = s.map ∧
    (finishWrite tag line s).mig = s.mig ∧ (finishWrite tag line s).media = s.media ∧
    (finishWrite tag line s).jrn = s.jrn ∧ (finishWrite tag line s).health = s.health ∧
    (finishWrite tag line s).link = s.link ∧ (finishWrite tag line s).pending = s.pending := by
  unfold finishWrite
  try dsimp only
  repeat' split
  all_goals simp

@[simp] theorem acceptWrite_frame (e : TagEntry) (s : State) :
    (acceptWrite e s).unit = s.unit ∧ (acceptWrite e s).time = s.time ∧ (acceptWrite e s).map = s.map ∧
    (acceptWrite e s).mig = s.mig ∧ (acceptWrite e s).media = s.media ∧ (acceptWrite e s).jrn = s.jrn ∧
    (acceptWrite e s).health = s.health ∧ (acceptWrite e s).link = s.link ∧ (acceptWrite e s).pending = s.pending := by
  unfold acceptWrite
  try dsimp only
  repeat' split
  all_goals simp

@[simp] theorem takeRequest_frame (e : TagEntry) (s : State) :
    (takeRequest e s).unit = s.unit ∧ (takeRequest e s).time = s.time ∧ (takeRequest e s).map = s.map ∧
    (takeRequest e s).mig = s.mig ∧ (takeRequest e s).jrn = s.jrn ∧ (takeRequest e s).health = s.health ∧
    (takeRequest e s).link = s.link ∧ (takeRequest e s).pending = s.pending := by
  unfold takeRequest
  try dsimp only
  repeat' split
  all_goals simp

@[simp] theorem takeLine_frame (line n : Nat) (s : State) :
    (takeLine line n s).unit = s.unit ∧ (takeLine line n s).time = s.time ∧ (takeLine line n s).map = s.map ∧
    (takeLine line n s).mig = s.mig ∧ (takeLine line n s).jrn = s.jrn ∧ (takeLine line n s).health = s.health ∧
    (takeLine line n s).link = s.link ∧ (takeLine line n s).pending = s.pending := by
  induction n generalizing s with
  | zero => simp [takeLine]
  | succ n ih =>
    unfold takeLine
    repeat' split
    all_goals simp [ih]

theorem waitQueueTake?_frame (s : State) {t : State} (h : waitQueueTake? s = some t) :
    t.unit = s.unit ∧ t.time = s.time ∧ t.map = s.map ∧ t.mig = s.mig ∧ t.jrn = s.jrn ∧ t.health = s.health ∧
    t.link = s.link ∧ t.pending = s.pending := by
  unfold waitQueueTake? at h
  repeat' split at h
  all_goals first | contradiction | (simp only [Option.some.injEq] at h; subst h; simp)

@[simp] theorem takePersist_frame (tag : BitVec 5) (s : State) :
    (takePersist tag s).unit = s.unit ∧ (takePersist tag s).time = s.time ∧ (takePersist tag s).buf = s.buf ∧
    (takePersist tag s).map = s.map ∧ (takePersist tag s).mig = s.mig ∧ (takePersist tag s).media = s.media ∧
    (takePersist tag s).jrn = s.jrn ∧ (takePersist tag s).health = s.health ∧ (takePersist tag s).link = s.link ∧
    (takePersist tag s).pending = s.pending := by
  unfold takePersist
  try dsimp only
  repeat' split
  all_goals simp

theorem persistTake?_frame (s : State) {t : State} (h : persistTake? s = some t) :
    t.unit = s.unit ∧ t.time = s.time ∧ t.buf = s.buf ∧ t.map = s.map ∧ t.mig = s.mig ∧ t.media = s.media ∧
    t.jrn = s.jrn ∧ t.health = s.health ∧ t.link = s.link ∧ t.pending = s.pending := by
  unfold persistTake? at h
  repeat' split at h
  all_goals first | contradiction | (simp only [Option.some.injEq] at h; subst h; simp)

theorem persistDone?_frame (s : State) {t : State} (h : persistDone? s = some t) :
    t.unit = s.unit ∧ t.time = s.time ∧ t.buf = s.buf ∧ t.map = s.map ∧ t.mig = s.mig ∧ t.media = s.media ∧
    t.jrn = s.jrn ∧ t.health = s.health ∧ t.link = s.link ∧ t.pending = s.pending := by
  unfold persistDone? at h
  repeat' split at h
  all_goals first | contradiction | (simp only [Option.some.injEq] at h; subst h; simp)

theorem flushDone?_frame (s : State) {t : State} (h : flushDone? s = some t) :
    t.unit = s.unit ∧ t.time = s.time ∧ t.host = s.host ∧ t.map = s.map ∧ t.mig = s.mig ∧ t.media = s.media ∧
    t.jrn = s.jrn ∧ t.health = s.health ∧ t.out = s.out ∧ t.pending = s.pending ∧
    t.link.enables = s.link.enables ∧ t.link.response = s.link.response := by
  unfold flushDone? at h
  repeat' split at h
  all_goals first | contradiction | (simp only [Option.some.injEq] at h; subst h; simp)

@[simp] theorem arriveRead_frame (tag : BitVec 5) (line : Nat) (s : State) :
    (arriveRead tag line s).unit = s.unit ∧ (arriveRead tag line s).time = s.time ∧
    (arriveRead tag line s).buf = s.buf ∧ (arriveRead tag line s).map = s.map ∧
    (arriveRead tag line s).mig = s.mig ∧ (arriveRead tag line s).jrn = s.jrn ∧
    (arriveRead tag line s).health = s.health ∧ (arriveRead tag line s).link = s.link ∧
    (arriveRead tag line s).pending = s.pending := by
  unfold arriveRead
  try dsimp only
  repeat' split
  all_goals simp

@[simp] theorem arriveWrite_frame (tag : BitVec 5) (line : Nat) (mask : Flags64) (data : LineData) (s : State) :
    (arriveWrite tag line mask data s).unit = s.unit ∧ (arriveWrite tag line mask data s).time = s.time ∧
    (arriveWrite tag line mask data s).map = s.map ∧ (arriveWrite tag line mask data s).mig = s.mig ∧
    (arriveWrite tag line mask data s).jrn = s.jrn ∧ (arriveWrite tag line mask data s).health = s.health ∧
    (arriveWrite tag line mask data s).link = s.link ∧ (arriveWrite tag line mask data s).pending = s.pending := by
  unfold arriveWrite
  try dsimp only
  repeat' split
  all_goals simp

@[simp] theorem arrivePersist_frame (tag : BitVec 5) (line : Nat) (s : State) :
    (arrivePersist tag line s).unit = s.unit ∧ (arrivePersist tag line s).time = s.time ∧
    (arrivePersist tag line s).buf = s.buf ∧ (arrivePersist tag line s).map = s.map ∧
    (arrivePersist tag line s).mig = s.mig ∧ (arrivePersist tag line s).media = s.media ∧
    (arrivePersist tag line s).jrn = s.jrn ∧ (arrivePersist tag line s).health = s.health ∧
    (arrivePersist tag line s).link = s.link ∧ (arrivePersist tag line s).pending = s.pending := by
  unfold arrivePersist
  try dsimp only
  repeat' split
  all_goals simp

theorem arrivalCheck_frame (tag : BitVec 5) (s : State) {t : State} (h : arrivalCheck tag s = some t) :
    t.unit = s.unit ∧ t.time = s.time ∧ t.host = s.host ∧ t.buf = s.buf ∧ t.map = s.map ∧ t.mig = s.mig ∧
    t.media = s.media ∧ t.jrn = s.jrn ∧ t.health = s.health ∧ t.pending = s.pending ∧
    t.link.enables = s.link.enables ∧ t.link.response = s.link.response := by
  unfold arrivalCheck at h
  repeat' split at h
  all_goals first | contradiction | (simp only [Option.some.injEq] at h; subst h; simp)

@[simp] theorem hostReadArrives_frame (tag : BitVec 5) (line : Nat) (s : State) :
    (hostReadArrives tag line s).unit = s.unit ∧ (hostReadArrives tag line s).time = s.time ∧
    (hostReadArrives tag line s).buf = s.buf ∧ (hostReadArrives tag line s).map = s.map ∧
    (hostReadArrives tag line s).mig = s.mig ∧ (hostReadArrives tag line s).jrn = s.jrn ∧
    (hostReadArrives tag line s).health = s.health ∧ (hostReadArrives tag line s).pending = s.pending ∧
    (hostReadArrives tag line s).link.enables = s.link.enables ∧
    (hostReadArrives tag line s).link.response = s.link.response := by
  unfold hostReadArrives
  split
  · rename_i t h
    simp [arrivalCheck_frame tag s h]
  · repeat' split
    all_goals simp

@[simp] theorem hostWriteArrives_frame (tag : BitVec 5) (line : Nat) (mask : Flags64) (data : LineData) (s : State) :
    (hostWriteArrives tag line mask data s).unit = s.unit ∧
    (hostWriteArrives tag line mask data s).time = s.time ∧ (hostWriteArrives tag line mask data s).map = s.map ∧
    (hostWriteArrives tag line mask data s).mig = s.mig ∧ (hostWriteArrives tag line mask data s).jrn = s.jrn ∧
    (hostWriteArrives tag line mask data s).health = s.health ∧
    (hostWriteArrives tag line mask data s).pending = s.pending ∧
    (hostWriteArrives tag line mask data s).link.enables = s.link.enables ∧
    (hostWriteArrives tag line mask data s).link.response = s.link.response := by
  unfold hostWriteArrives
  split
  · rename_i t h
    simp [arrivalCheck_frame tag s h]
  · repeat' split
    all_goals simp

@[simp] theorem hostPersistArrives_frame (tag : BitVec 5) (line : Nat) (s : State) :
    (hostPersistArrives tag line s).unit = s.unit ∧ (hostPersistArrives tag line s).time = s.time ∧
    (hostPersistArrives tag line s).buf = s.buf ∧ (hostPersistArrives tag line s).map = s.map ∧
    (hostPersistArrives tag line s).mig = s.mig ∧ (hostPersistArrives tag line s).media = s.media ∧
    (hostPersistArrives tag line s).jrn = s.jrn ∧ (hostPersistArrives tag line s).health = s.health ∧
    (hostPersistArrives tag line s).pending = s.pending ∧
    (hostPersistArrives tag line s).link.enables = s.link.enables ∧
    (hostPersistArrives tag line s).link.response = s.link.response := by
  unfold hostPersistArrives
  split
  · rename_i t h
    simp [arrivalCheck_frame tag s h]
  · simp

@[simp] theorem hostUnknownArrives_frame (s : State) :
    (hostUnknownArrives s).unit = s.unit ∧ (hostUnknownArrives s).time = s.time ∧
    (hostUnknownArrives s).host = s.host ∧ (hostUnknownArrives s).buf = s.buf ∧
    (hostUnknownArrives s).map = s.map ∧ (hostUnknownArrives s).mig = s.mig ∧
    (hostUnknownArrives s).media = s.media ∧ (hostUnknownArrives s).jrn = s.jrn ∧
    (hostUnknownArrives s).health = s.health ∧ (hostUnknownArrives s).out = s.out ∧
    (hostUnknownArrives s).pending = s.pending ∧ (hostUnknownArrives s).link.enables = s.link.enables ∧
    (hostUnknownArrives s).link.response = s.link.response := by
  unfold hostUnknownArrives
  try dsimp only
  repeat' split
  all_goals simp

@[simp] theorem refuseWaiting_frame (s : State) :
    (refuseWaiting s).unit = s.unit ∧ (refuseWaiting s).time = s.time ∧ (refuseWaiting s).map = s.map ∧
    (refuseWaiting s).mig = s.mig ∧ (refuseWaiting s).jrn = s.jrn ∧ (refuseWaiting s).health = s.health ∧
    (refuseWaiting s).link = s.link ∧ (refuseWaiting s).pending = s.pending :=
  ⟨(keep_foldl (fun x : State => x.unit) _ (fun u e => by simp) _ _).trans (keep_foldl (fun x : State => x.unit) _ (fun u e => by simp) _ _),
   (keep_foldl (fun x : State => x.time) _ (fun u e => by simp) _ _).trans (keep_foldl (fun x : State => x.time) _ (fun u e => by simp) _ _),
   (keep_foldl (fun x : State => x.map) _ (fun u e => by simp) _ _).trans (keep_foldl (fun x : State => x.map) _ (fun u e => by simp) _ _),
   (keep_foldl (fun x : State => x.mig) _ (fun u e => by simp) _ _).trans (keep_foldl (fun x : State => x.mig) _ (fun u e => by simp) _ _),
   (keep_foldl (fun x : State => x.jrn) _ (fun u e => by simp) _ _).trans (keep_foldl (fun x : State => x.jrn) _ (fun u e => by simp) _ _),
   (keep_foldl (fun x : State => x.health) _ (fun u e => by simp) _ _).trans (keep_foldl (fun x : State => x.health) _ (fun u e => by simp) _ _),
   (keep_foldl (fun x : State => x.link) _ (fun u e => by simp) _ _).trans (keep_foldl (fun x : State => x.link) _ (fun u e => by simp) _ _),
   (keep_foldl (fun x : State => x.pending) _ (fun u e => by simp) _ _).trans (keep_foldl (fun x : State => x.pending) _ (fun u e => by simp) _ _)⟩

@[simp] theorem answerAllFailed_frame (s : State) :
    (answerAllFailed s).unit = s.unit ∧ (answerAllFailed s).time = s.time ∧ (answerAllFailed s).buf = s.buf ∧
    (answerAllFailed s).map = s.map ∧ (answerAllFailed s).mig = s.mig ∧ (answerAllFailed s).media = s.media ∧
    (answerAllFailed s).jrn = s.jrn ∧ (answerAllFailed s).health = s.health ∧ (answerAllFailed s).link = s.link ∧
    (answerAllFailed s).pending = s.pending :=
  ⟨keep_foldl (fun x : State => x.unit) _ (fun u e => by simp) _ _,
   keep_foldl (fun x : State => x.time) _ (fun u e => by simp) _ _,
   keep_foldl (fun x : State => x.buf) _ (fun u e => by simp) _ _,
   keep_foldl (fun x : State => x.map) _ (fun u e => by simp) _ _,
   keep_foldl (fun x : State => x.mig) _ (fun u e => by simp) _ _,
   keep_foldl (fun x : State => x.media) _ (fun u e => by simp) _ _,
   keep_foldl (fun x : State => x.jrn) _ (fun u e => by simp) _ _,
   keep_foldl (fun x : State => x.health) _ (fun u e => by simp) _ _,
   keep_foldl (fun x : State => x.link) _ (fun u e => by simp) _ _,
   keep_foldl (fun x : State => x.pending) _ (fun u e => by simp) _ _⟩

/-! ### Journal -/

@[simp] theorem stageRecord_frame (c : Creator) (r : JournalRecord) (s : State) :
    (stageRecord c r s).unit = s.unit ∧ (stageRecord c r s).time = s.time ∧ (stageRecord c r s).host = s.host ∧
    (stageRecord c r s).buf = s.buf ∧ (stageRecord c r s).map = s.map ∧ (stageRecord c r s).mig = s.mig ∧
    (stageRecord c r s).media = s.media ∧ (stageRecord c r s).health = s.health ∧
    (stageRecord c r s).link = s.link ∧ (stageRecord c r s).out = s.out ∧ (stageRecord c r s).pending = s.pending := by
  unfold stageRecord
  try dsimp only
  all_goals simp

@[simp] theorem waitWith_frame (c : Creator) (r : JournalRecord) (s : State) :
    (waitWith c r s).unit = s.unit ∧ (waitWith c r s).time = s.time ∧ (waitWith c r s).host = s.host ∧
    (waitWith c r s).buf = s.buf ∧ (waitWith c r s).map = s.map ∧ (waitWith c r s).mig = s.mig ∧
    (waitWith c r s).media = s.media ∧ (waitWith c r s).health = s.health ∧ (waitWith c r s).out = s.out ∧
    (waitWith c r s).pending = s.pending ∧ (waitWith c r s).link.enables = s.link.enables ∧
    (waitWith c r s).link.response = s.link.response := by
  unfold waitWith
  try dsimp only
  repeat' split
  all_goals simp

@[simp] theorem handOver_frame (c : Creator) (r : JournalRecord) (s : State) :
    (handOver c r s).unit = s.unit ∧ (handOver c r s).time = s.time ∧ (handOver c r s).host = s.host ∧
    (handOver c r s).buf = s.buf ∧ (handOver c r s).map = s.map ∧ (handOver c r s).mig = s.mig ∧
    (handOver c r s).media = s.media ∧ (handOver c r s).health = s.health ∧ (handOver c r s).out = s.out ∧
    (handOver c r s).pending = s.pending ∧ (handOver c r s).link.enables = s.link.enables ∧
    (handOver c r s).link.response = s.link.response := by
  unfold handOver
  try dsimp only
  repeat' split
  all_goals simp

@[simp] theorem onJoined_frame (c : Creator) (r : JournalRecord) (s : State) :
    (onJoined c r s).unit = s.unit ∧ (onJoined c r s).time = s.time ∧ (onJoined c r s).host = s.host ∧
    (onJoined c r s).map = s.map ∧ (onJoined c r s).mig = s.mig ∧ (onJoined c r s).media = s.media ∧
    (onJoined c r s).jrn = s.jrn ∧ (onJoined c r s).health = s.health ∧ (onJoined c r s).link = s.link ∧
    (onJoined c r s).out = s.out ∧ (onJoined c r s).pending = s.pending := by
  unfold onJoined
  try dsimp only
  repeat' split
  all_goals simp

theorem creatorJoin?_frame (s : State) {t : State} (h : creatorJoin? s = some t) :
    t.unit = s.unit ∧ t.time = s.time ∧ t.host = s.host ∧ t.map = s.map ∧ t.mig = s.mig ∧ t.media = s.media ∧
    t.health = s.health ∧ t.link = s.link ∧ t.out = s.out ∧ t.pending = s.pending := by
  unfold creatorJoin? at h
  repeat' split at h
  all_goals first | contradiction | (simp only [Option.some.injEq] at h; subst h; simp)

@[simp] theorem startCheckpoint_frame (clean : Bool) (s : State) :
    (startCheckpoint clean s).unit = s.unit ∧ (startCheckpoint clean s).time = s.time ∧
    (startCheckpoint clean s).host = s.host ∧ (startCheckpoint clean s).buf = s.buf ∧
    (startCheckpoint clean s).map = s.map ∧ (startCheckpoint clean s).mig = s.mig ∧
    (startCheckpoint clean s).media = s.media ∧ (startCheckpoint clean s).health = s.health ∧
    (startCheckpoint clean s).link = s.link ∧ (startCheckpoint clean s).out = s.out ∧
    (startCheckpoint clean s).pending = s.pending := by
  unfold startCheckpoint
  try dsimp only
  all_goals simp

@[simp] theorem triggerCheckpoint_frame (s : State) :
    (triggerCheckpoint s).unit = s.unit ∧ (triggerCheckpoint s).time = s.time ∧
    (triggerCheckpoint s).host = s.host ∧ (triggerCheckpoint s).buf = s.buf ∧ (triggerCheckpoint s).map = s.map ∧
    (triggerCheckpoint s).mig = s.mig ∧ (triggerCheckpoint s).media = s.media ∧
    (triggerCheckpoint s).health = s.health ∧ (triggerCheckpoint s).link = s.link ∧
    (triggerCheckpoint s).out = s.out ∧ (triggerCheckpoint s).pending = s.pending := by
  unfold triggerCheckpoint
  try dsimp only
  repeat' split
  all_goals simp

@[simp] theorem ringTrigger_frame (s : State) :
    (ringTrigger s).unit = s.unit ∧ (ringTrigger s).time = s.time ∧ (ringTrigger s).host = s.host ∧
    (ringTrigger s).buf = s.buf ∧ (ringTrigger s).map = s.map ∧ (ringTrigger s).mig = s.mig ∧
    (ringTrigger s).media = s.media ∧ (ringTrigger s).health = s.health ∧ (ringTrigger s).link = s.link ∧
    (ringTrigger s).out = s.out ∧ (ringTrigger s).pending = s.pending := by
  unfold ringTrigger
  try dsimp only
  repeat' split
  all_goals simp

theorem imageFix?_frame (s : State) {t : State} (h : imageFix? s = some t) :
    t.unit = s.unit ∧ t.time = s.time ∧ t.host = s.host ∧ t.buf = s.buf ∧ t.map = s.map ∧ t.mig = s.mig ∧
    t.health = s.health ∧ t.link = s.link ∧ t.out = s.out ∧ t.pending = s.pending := by
  unfold imageFix? at h
  repeat' split at h
  all_goals first | contradiction | (simp only [Option.some.injEq] at h; subst h; simp)

@[simp] theorem issueRecord_frame (r : StagedRecord) (rest : List StagedRecord) (s : State) :
    (issueRecord r rest s).unit = s.unit ∧ (issueRecord r rest s).time = s.time ∧
    (issueRecord r rest s).host = s.host ∧ (issueRecord r rest s).buf = s.buf ∧
    (issueRecord r rest s).map = s.map ∧ (issueRecord r rest s).mig = s.mig ∧
    (issueRecord r rest s).health = s.health ∧ (issueRecord r rest s).link = s.link ∧
    (issueRecord r rest s).out = s.out ∧ (issueRecord r rest s).pending = s.pending := by
  unfold issueRecord
  try dsimp only
  repeat' split
  all_goals simp

theorem recordIssue?_frame (s : State) {t : State} (h : recordIssue? s = some t) :
    t.unit = s.unit ∧ t.time = s.time ∧ t.host = s.host ∧ t.buf = s.buf ∧ t.map = s.map ∧ t.mig = s.mig ∧
    t.health = s.health ∧ t.link = s.link ∧ t.out = s.out ∧ t.pending = s.pending := by
  unfold recordIssue? at h
  repeat' split at h
  all_goals first | contradiction | (simp only [Option.some.injEq] at h; subst h; simp)

@[simp] theorem abandonCheckpoint_frame (s : State) :
    (abandonCheckpoint s).unit = s.unit ∧ (abandonCheckpoint s).time = s.time ∧
    (abandonCheckpoint s).host = s.host ∧ (abandonCheckpoint s).buf = s.buf ∧ (abandonCheckpoint s).map = s.map ∧
    (abandonCheckpoint s).mig = s.mig ∧ (abandonCheckpoint s).health = s.health ∧
    (abandonCheckpoint s).link = s.link ∧ (abandonCheckpoint s).out = s.out ∧
    (abandonCheckpoint s).pending = s.pending := by
  unfold abandonCheckpoint
  try dsimp only
  repeat' split
  all_goals simp

/-! ### Wear -/

@[simp] theorem setLastResult_frame (logical : Nat) (reason : Reason) (result : MigResult) (s : State) :
    (setLastResult logical reason result s).unit = s.unit ∧
    (setLastResult logical reason result s).time = s.time ∧
    (setLastResult logical reason result s).host = s.host ∧ (setLastResult logical reason result s).buf = s.buf ∧
    (setLastResult logical reason result s).map = s.map ∧
    (setLastResult logical reason result s).media = s.media ∧
    (setLastResult logical reason result s).jrn = s.jrn ∧
    (setLastResult logical reason result s).health = s.health ∧
    (setLastResult logical reason result s).link = s.link ∧ (setLastResult logical reason result s).out = s.out ∧
    (setLastResult logical reason result s).pending = s.pending := by
  unfold setLastResult
  try dsimp only
  all_goals simp

@[simp] theorem joinRetire_frame (r : MigRequest) (s : State) :
    (joinRetire r s).unit = s.unit ∧ (joinRetire r s).time = s.time ∧ (joinRetire r s).host = s.host ∧
    (joinRetire r s).buf = s.buf ∧ (joinRetire r s).map = s.map ∧ (joinRetire r s).media = s.media ∧
    (joinRetire r s).jrn = s.jrn ∧ (joinRetire r s).health = s.health ∧ (joinRetire r s).link = s.link ∧
    (joinRetire r s).out = s.out ∧ (joinRetire r s).pending = s.pending := by
  unfold joinRetire
  try dsimp only
  all_goals simp

@[simp] theorem joinBack_frame (r : MigRequest) (s : State) :
    (joinBack r s).unit = s.unit ∧ (joinBack r s).time = s.time ∧ (joinBack r s).host = s.host ∧
    (joinBack r s).buf = s.buf ∧ (joinBack r s).map = s.map ∧ (joinBack r s).media = s.media ∧
    (joinBack r s).jrn = s.jrn ∧ (joinBack r s).health = s.health ∧ (joinBack r s).link = s.link ∧
    (joinBack r s).out = s.out ∧ (joinBack r s).pending = s.pending := by
  unfold joinBack
  try dsimp only
  all_goals simp

@[simp] theorem evictNewest_frame (s : State) :
    (evictNewest s).unit = s.unit ∧ (evictNewest s).time = s.time ∧ (evictNewest s).host = s.host ∧
    (evictNewest s).buf = s.buf ∧ (evictNewest s).map = s.map ∧ (evictNewest s).media = s.media ∧
    (evictNewest s).jrn = s.jrn ∧ (evictNewest s).health = s.health ∧ (evictNewest s).out = s.out ∧
    (evictNewest s).pending = s.pending ∧ (evictNewest s).link.enables = s.link.enables ∧
    (evictNewest s).link.response = s.link.response := by
  unfold evictNewest
  try dsimp only
  repeat' split
  all_goals simp

@[simp] theorem upgradeCurrent_frame (reason : Reason) (s : State) :
    (upgradeCurrent reason s).unit = s.unit ∧ (upgradeCurrent reason s).time = s.time ∧
    (upgradeCurrent reason s).host = s.host ∧ (upgradeCurrent reason s).buf = s.buf ∧
    (upgradeCurrent reason s).map = s.map ∧ (upgradeCurrent reason s).media = s.media ∧
    (upgradeCurrent reason s).jrn = s.jrn ∧ (upgradeCurrent reason s).health = s.health ∧
    (upgradeCurrent reason s).link = s.link ∧ (upgradeCurrent reason s).out = s.out ∧
    (upgradeCurrent reason s).pending = s.pending := by
  unfold upgradeCurrent
  try dsimp only
  all_goals simp

@[simp] theorem handleRetire_frame (logical : Nat) (reason : Reason) (s : State) :
    (handleRetire logical reason s).unit = s.unit ∧ (handleRetire logical reason s).time = s.time ∧
    (handleRetire logical reason s).host = s.host ∧ (handleRetire logical reason s).buf = s.buf ∧
    (handleRetire logical reason s).map = s.map ∧ (handleRetire logical reason s).media = s.media ∧
    (handleRetire logical reason s).jrn = s.jrn ∧ (handleRetire logical reason s).health = s.health ∧
    (handleRetire logical reason s).out = s.out ∧ (handleRetire logical reason s).pending = s.pending ∧
    (handleRetire logical reason s).link.enables = s.link.enables ∧
    (handleRetire logical reason s).link.response = s.link.response := by
  unfold handleRetire
  try dsimp only
  repeat' split
  all_goals simp

@[simp] theorem retireRequest_frame (logical : Nat) (reason : Reason) (s : State) :
    (retireRequest logical reason s).unit = s.unit ∧ (retireRequest logical reason s).time = s.time ∧
    (retireRequest logical reason s).host = s.host ∧ (retireRequest logical reason s).buf = s.buf ∧
    (retireRequest logical reason s).map = s.map ∧ (retireRequest logical reason s).media = s.media ∧
    (retireRequest logical reason s).jrn = s.jrn ∧ (retireRequest logical reason s).health = s.health ∧
    (retireRequest logical reason s).out = s.out ∧ (retireRequest logical reason s).pending = s.pending ∧
    (retireRequest logical reason s).link.enables = s.link.enables ∧
    (retireRequest logical reason s).link.response = s.link.response := by
  unfold retireRequest
  try dsimp only
  repeat' split
  all_goals simp

@[simp] theorem retireCause_frame (frame : Nat) (reason : Reason) (s : State) :
    (retireCause frame reason s).unit = s.unit ∧ (retireCause frame reason s).time = s.time ∧
    (retireCause frame reason s).host = s.host ∧ (retireCause frame reason s).buf = s.buf ∧
    (retireCause frame reason s).media = s.media ∧ (retireCause frame reason s).jrn = s.jrn ∧
    (retireCause frame reason s).health = s.health ∧ (retireCause frame reason s).out = s.out ∧
    (retireCause frame reason s).pending = s.pending ∧
    (retireCause frame reason s).link.enables = s.link.enables ∧
    (retireCause frame reason s).link.response = s.link.response := by
  unfold retireCause
  try dsimp only
  repeat' split
  all_goals simp

@[simp] theorem raiseWear_frame (frame : Nat) (s : State) :
    (raiseWear frame s).unit = s.unit ∧ (raiseWear frame s).time = s.time ∧ (raiseWear frame s).host = s.host ∧
    (raiseWear frame s).buf = s.buf ∧ (raiseWear frame s).mig = s.mig ∧ (raiseWear frame s).media = s.media ∧
    (raiseWear frame s).jrn = s.jrn ∧ (raiseWear frame s).health = s.health ∧ (raiseWear frame s).link = s.link ∧
    (raiseWear frame s).out = s.out ∧ (raiseWear frame s).pending = s.pending := by
  unfold raiseWear
  try dsimp only
  all_goals simp

@[simp] theorem checkWear_frame (frame : Nat) (s : State) :
    (checkWear frame s).unit = s.unit ∧ (checkWear frame s).time = s.time ∧ (checkWear frame s).host = s.host ∧
    (checkWear frame s).buf = s.buf ∧ (checkWear frame s).media = s.media ∧ (checkWear frame s).jrn = s.jrn ∧
    (checkWear frame s).health = s.health ∧ (checkWear frame s).out = s.out ∧
    (checkWear frame s).pending = s.pending ∧ (checkWear frame s).link.enables = s.link.enables ∧
    (checkWear frame s).link.response = s.link.response := by
  unfold checkWear
  try dsimp only
  repeat' split
  all_goals simp

@[simp] theorem raiseCorrected_frame (frame : Nat) (s : State) :
    (raiseCorrected frame s).unit = s.unit ∧ (raiseCorrected frame s).time = s.time ∧
    (raiseCorrected frame s).host = s.host ∧ (raiseCorrected frame s).buf = s.buf ∧
    (raiseCorrected frame s).media = s.media ∧ (raiseCorrected frame s).jrn = s.jrn ∧
    (raiseCorrected frame s).health = s.health ∧ (raiseCorrected frame s).out = s.out ∧
    (raiseCorrected frame s).pending = s.pending ∧ (raiseCorrected frame s).link.enables = s.link.enables ∧
    (raiseCorrected frame s).link.response = s.link.response := by
  unfold raiseCorrected
  try dsimp only
  repeat' split
  all_goals simp

@[simp] theorem readOutcome_frame {α : Type} (op : InFlight) (o : ReadOutcome α) (s : State) :
    (readOutcome op o s).unit = s.unit ∧ (readOutcome op o s).time = s.time ∧ (readOutcome op o s).host = s.host ∧
    (readOutcome op o s).buf = s.buf ∧ (readOutcome op o s).jrn = s.jrn ∧ (readOutcome op o s).out = s.out ∧
    (readOutcome op o s).pending = s.pending ∧ (readOutcome op o s).link.enables = s.link.enables ∧
    (readOutcome op o s).link.response = s.link.response := by
  unfold readOutcome
  try dsimp only
  repeat' split
  all_goals simp

@[simp] theorem writeOutcome_frame (op : InFlight) (report : WriteReport) (s : State) :
    (writeOutcome op report s).unit = s.unit ∧ (writeOutcome op report s).time = s.time ∧
    (writeOutcome op report s).host = s.host ∧ (writeOutcome op report s).buf = s.buf ∧
    (writeOutcome op report s).mig = s.mig ∧ (writeOutcome op report s).jrn = s.jrn ∧
    (writeOutcome op report s).link = s.link ∧ (writeOutcome op report s).out = s.out ∧
    (writeOutcome op report s).pending = s.pending := by
  unfold writeOutcome
  try dsimp only
  repeat' split
  all_goals simp

@[simp] theorem offerFrame_frame (s : State) (frame : Nat) :
    (offerFrame s frame).unit = s.unit ∧ (offerFrame s frame).time = s.time ∧ (offerFrame s frame).host = s.host ∧
    (offerFrame s frame).buf = s.buf ∧ (offerFrame s frame).map = s.map ∧ (offerFrame s frame).media = s.media ∧
    (offerFrame s frame).jrn = s.jrn ∧ (offerFrame s frame).health = s.health ∧ (offerFrame s frame).out = s.out ∧
    (offerFrame s frame).pending = s.pending ∧ (offerFrame s frame).link.enables = s.link.enables ∧
    (offerFrame s frame).link.response = s.link.response := by
  unfold offerFrame
  try dsimp only
  repeat' split
  all_goals simp

@[simp] theorem requeue_frame (s : State) :
    (requeue s).unit = s.unit ∧ (requeue s).time = s.time ∧ (requeue s).host = s.host ∧ (requeue s).buf = s.buf ∧
    (requeue s).map = s.map ∧ (requeue s).media = s.media ∧ (requeue s).jrn = s.jrn ∧
    (requeue s).health = s.health ∧ (requeue s).out = s.out ∧ (requeue s).pending = s.pending ∧
    (requeue s).link.enables = s.link.enables ∧ (requeue s).link.response = s.link.response :=
  ⟨keep_foldl (fun x : State => x.unit) _ (fun u a => by simp) _ _,
   keep_foldl (fun x : State => x.time) _ (fun u a => by simp) _ _,
   keep_foldl (fun x : State => x.host) _ (fun u a => by simp) _ _,
   keep_foldl (fun x : State => x.buf) _ (fun u a => by simp) _ _,
   keep_foldl (fun x : State => x.map) _ (fun u a => by simp) _ _,
   keep_foldl (fun x : State => x.media) _ (fun u a => by simp) _ _,
   keep_foldl (fun x : State => x.jrn) _ (fun u a => by simp) _ _,
   keep_foldl (fun x : State => x.health) _ (fun u a => by simp) _ _,
   keep_foldl (fun x : State => x.out) _ (fun u a => by simp) _ _,
   keep_foldl (fun x : State => x.pending) _ (fun u a => by simp) _ _,
   keep_foldl (fun x : State => x.link.enables) _ (fun u a => by simp) _ _,
   keep_foldl (fun x : State => x.link.response) _ (fun u a => by simp) _ _⟩

@[simp] theorem setLevelCheck_frame (outcome : LevelOutcome) (figures : Option LevelFigures) (s : State) :
    (setLevelCheck outcome figures s).unit = s.unit ∧ (setLevelCheck outcome figures s).time = s.time ∧
    (setLevelCheck outcome figures s).host = s.host ∧ (setLevelCheck outcome figures s).buf = s.buf ∧
    (setLevelCheck outcome figures s).map = s.map ∧ (setLevelCheck outcome figures s).media = s.media ∧
    (setLevelCheck outcome figures s).jrn = s.jrn ∧ (setLevelCheck outcome figures s).health = s.health ∧
    (setLevelCheck outcome figures s).link = s.link ∧ (setLevelCheck outcome figures s).out = s.out ∧
    (setLevelCheck outcome figures s).pending = s.pending := by
  unfold setLevelCheck
  try dsimp only
  all_goals simp

@[simp] theorem compareLevel_frame (hot : FrameRecord × Nat) (head : Nat) (s : State) :
    (compareLevel hot head s).unit = s.unit ∧ (compareLevel hot head s).time = s.time ∧
    (compareLevel hot head s).host = s.host ∧ (compareLevel hot head s).buf = s.buf ∧
    (compareLevel hot head s).map = s.map ∧ (compareLevel hot head s).media = s.media ∧
    (compareLevel hot head s).jrn = s.jrn ∧ (compareLevel hot head s).health = s.health ∧
    (compareLevel hot head s).link = s.link ∧ (compareLevel hot head s).out = s.out ∧
    (compareLevel hot head s).pending = s.pending := by
  unfold compareLevel
  try dsimp only
  repeat' split
  all_goals simp

@[simp] theorem levelCheck_frame (s : State) :
    (levelCheck s).unit = s.unit ∧ (levelCheck s).time = s.time ∧ (levelCheck s).host = s.host ∧
    (levelCheck s).buf = s.buf ∧ (levelCheck s).map = s.map ∧ (levelCheck s).media = s.media ∧
    (levelCheck s).jrn = s.jrn ∧ (levelCheck s).health = s.health ∧ (levelCheck s).link = s.link ∧
    (levelCheck s).out = s.out ∧ (levelCheck s).pending = s.pending := by
  unfold levelCheck
  try dsimp only
  repeat' split
  all_goals simp

@[simp] theorem wearSweep_frame (s : State) :
    (wearSweep s).unit = s.unit ∧ (wearSweep s).time = s.time ∧ (wearSweep s).host = s.host ∧
    (wearSweep s).buf = s.buf ∧ (wearSweep s).map = s.map ∧ (wearSweep s).media = s.media ∧
    (wearSweep s).jrn = s.jrn ∧ (wearSweep s).health = s.health ∧ (wearSweep s).out = s.out ∧
    (wearSweep s).pending = s.pending ∧ (wearSweep s).link.enables = s.link.enables ∧
    (wearSweep s).link.response = s.link.response := by
  unfold wearSweep
  try dsimp only
  all_goals simp

/-! ### Migration -/

@[simp] theorem setLatch_frame (s : State) :
    (setLatch s).time = s.time ∧ (setLatch s).mig = s.mig ∧ (setLatch s).jrn = s.jrn ∧
    (setLatch s).health = s.health ∧ (setLatch s).pending = s.pending ∧
    (setLatch s).link.enables = s.link.enables ∧ (setLatch s).link.response = s.link.response := by
  unfold setLatch
  try dsimp only
  repeat' split
  all_goals simp

@[simp] theorem startCopy_frame (i : Nat) (s : State) :
    (startCopy i s).unit = s.unit ∧ (startCopy i s).time = s.time ∧ (startCopy i s).host = s.host ∧
    (startCopy i s).buf = s.buf ∧ (startCopy i s).map = s.map ∧ (startCopy i s).mig = s.mig ∧
    (startCopy i s).jrn = s.jrn ∧ (startCopy i s).health = s.health ∧ (startCopy i s).link = s.link ∧
    (startCopy i s).out = s.out ∧ (startCopy i s).pending = s.pending := by
  unfold startCopy
  try dsimp only
  repeat' split
  all_goals simp

@[simp] theorem engineIdle_frame (s : State) :
    (engineIdle s).unit = s.unit ∧ (engineIdle s).time = s.time ∧ (engineIdle s).host = s.host ∧
    (engineIdle s).buf = s.buf ∧ (engineIdle s).map = s.map ∧ (engineIdle s).media = s.media ∧
    (engineIdle s).jrn = s.jrn ∧ (engineIdle s).health = s.health ∧ (engineIdle s).link = s.link ∧
    (engineIdle s).out = s.out ∧ (engineIdle s).pending = s.pending := by
  unfold engineIdle
  try dsimp only
  all_goals simp

@[simp] theorem spareExhausted_frame (m : Migration) (s : State) :
    (spareExhausted m s).time = s.time ∧ (spareExhausted m s).jrn = s.jrn ∧
    (spareExhausted m s).health = s.health ∧ (spareExhausted m s).pending = s.pending ∧
    (spareExhausted m s).link.enables = s.link.enables ∧ (spareExhausted m s).link.response = s.link.response := by
  unfold spareExhausted
  try dsimp only
  all_goals simp

@[simp] theorem noSpare_frame (m : Migration) (s : State) :
    (noSpare m s).unit = s.unit ∧ (noSpare m s).time = s.time ∧ (noSpare m s).host = s.host ∧
    (noSpare m s).buf = s.buf ∧ (noSpare m s).media = s.media ∧ (noSpare m s).jrn = s.jrn ∧
    (noSpare m s).out = s.out ∧ (noSpare m s).pending = s.pending ∧ (noSpare m s).link.enables = s.link.enables ∧
    (noSpare m s).link.response = s.link.response := by
  unfold noSpare
  try dsimp only
  all_goals simp

@[simp] theorem askTarget_frame (m : Migration) (s : State) :
    (askTarget m s).time = s.time ∧ (askTarget m s).jrn = s.jrn ∧ (askTarget m s).pending = s.pending ∧
    (askTarget m s).link.enables = s.link.enables ∧ (askTarget m s).link.response = s.link.response := by
  unfold askTarget
  try dsimp only
  repeat' split
  all_goals simp

theorem migrationTake?_frame (s : State) {t : State} (h : migrationTake? s = some t) :
    t.unit = s.unit ∧ t.time = s.time ∧ t.host = s.host ∧ t.buf = s.buf ∧ t.media = s.media ∧ t.jrn = s.jrn ∧
    t.health = s.health ∧ t.link = s.link ∧ t.out = s.out ∧ t.pending = s.pending := by
  unfold migrationTake? at h
  repeat' split at h
  all_goals first | contradiction | (simp only [Option.some.injEq] at h; subst h; simp)

theorem quiesceEnd?_frame (s : State) {t : State} (h : quiesceEnd? s = some t) :
    t.time = s.time ∧ t.jrn = s.jrn ∧ t.pending = s.pending ∧ t.link.enables = s.link.enables ∧
    t.link.response = s.link.response := by
  unfold quiesceEnd? at h
  repeat' split at h
  all_goals first | contradiction | (simp only [Option.some.injEq] at h; subst h; simp)

@[simp] theorem endCopy_frame (m : Migration) (s : State) :
    (endCopy m s).unit = s.unit ∧ (endCopy m s).time = s.time ∧ (endCopy m s).host = s.host ∧
    (endCopy m s).buf = s.buf ∧ (endCopy m s).map = s.map ∧ (endCopy m s).media = s.media ∧
    (endCopy m s).health = s.health ∧ (endCopy m s).out = s.out ∧ (endCopy m s).pending = s.pending ∧
    (endCopy m s).link.enables = s.link.enables ∧ (endCopy m s).link.response = s.link.response := by
  unfold endCopy
  try dsimp only
  all_goals simp

@[simp] theorem copyLineDone_frame (m : Migration) (s : State) :
    (copyLineDone m s).unit = s.unit ∧ (copyLineDone m s).time = s.time ∧ (copyLineDone m s).host = s.host ∧
    (copyLineDone m s).buf = s.buf ∧ (copyLineDone m s).map = s.map ∧ (copyLineDone m s).health = s.health ∧
    (copyLineDone m s).out = s.out ∧ (copyLineDone m s).pending = s.pending ∧
    (copyLineDone m s).link.enables = s.link.enables ∧ (copyLineDone m s).link.response = s.link.response := by
  unfold copyLineDone
  try dsimp only
  repeat' split
  all_goals simp

@[simp] theorem failTarget_frame (m : Migration) (s : State) :
    (failTarget m s).unit = s.unit ∧ (failTarget m s).time = s.time ∧ (failTarget m s).host = s.host ∧
    (failTarget m s).buf = s.buf ∧ (failTarget m s).media = s.media ∧ (failTarget m s).health = s.health ∧
    (failTarget m s).out = s.out ∧ (failTarget m s).pending = s.pending ∧
    (failTarget m s).link.enables = s.link.enables ∧ (failTarget m s).link.response = s.link.response := by
  unfold failTarget
  try dsimp only
  split
  all_goals simp

@[simp] theorem returnTarget_frame (m : Migration) (s : State) :
    (returnTarget m s).unit = s.unit ∧ (returnTarget m s).time = s.time ∧ (returnTarget m s).host = s.host ∧
    (returnTarget m s).buf = s.buf ∧ (returnTarget m s).mig = s.mig ∧ (returnTarget m s).media = s.media ∧
    (returnTarget m s).jrn = s.jrn ∧ (returnTarget m s).health = s.health ∧ (returnTarget m s).link = s.link ∧
    (returnTarget m s).out = s.out ∧ (returnTarget m s).pending = s.pending := by
  unfold returnTarget
  try dsimp only
  repeat' split
  all_goals simp

@[simp] theorem completeAbort_frame (m : Migration) (s : State) :
    (completeAbort m s).unit = s.unit ∧ (completeAbort m s).time = s.time ∧ (completeAbort m s).host = s.host ∧
    (completeAbort m s).buf = s.buf ∧ (completeAbort m s).media = s.media ∧ (completeAbort m s).jrn = s.jrn ∧
    (completeAbort m s).out = s.out ∧ (completeAbort m s).pending = s.pending ∧
    (completeAbort m s).link.enables = s.link.enables ∧ (completeAbort m s).link.response = s.link.response := by
  unfold completeAbort
  try dsimp only
  repeat' split
  all_goals simp

@[simp] theorem takeAbort_frame (s : State) :
    (takeAbort s).unit = s.unit ∧ (takeAbort s).time = s.time ∧ (takeAbort s).host = s.host ∧
    (takeAbort s).buf = s.buf ∧ (takeAbort s).map = s.map ∧ (takeAbort s).jrn = s.jrn ∧
    (takeAbort s).health = s.health ∧ (takeAbort s).link = s.link ∧ (takeAbort s).out = s.out ∧
    (takeAbort s).pending = s.pending := by
  unfold takeAbort
  try dsimp only
  all_goals simp

theorem abortComplete?_frame (s : State) {t : State} (h : abortComplete? s = some t) :
    t.unit = s.unit ∧ t.time = s.time ∧ t.host = s.host ∧ t.buf = s.buf ∧ t.media = s.media ∧ t.jrn = s.jrn ∧
    t.out = s.out ∧ t.pending = s.pending ∧ t.link.enables = s.link.enables ∧ t.link.response = s.link.response := by
  unfold abortComplete? at h
  repeat' split at h
  all_goals first | contradiction | (simp only [Option.some.injEq] at h; subst h; simp)

@[simp] theorem copyReadOutcome_frame (m : Migration) (o : ReadOutcome LineData) (s : State) :
    (copyReadOutcome m o s).unit = s.unit ∧ (copyReadOutcome m o s).time = s.time ∧
    (copyReadOutcome m o s).host = s.host ∧ (copyReadOutcome m o s).buf = s.buf ∧
    (copyReadOutcome m o s).jrn = s.jrn ∧ (copyReadOutcome m o s).out = s.out ∧
    (copyReadOutcome m o s).pending = s.pending ∧ (copyReadOutcome m o s).link.enables = s.link.enables ∧
    (copyReadOutcome m o s).link.response = s.link.response := by
  unfold copyReadOutcome
  try dsimp only
  repeat' split
  all_goals simp

@[simp] theorem copyWriteOutcome_frame (m : Migration) (report : WriteReport) (s : State) :
    (copyWriteOutcome m report s).time = s.time ∧ (copyWriteOutcome m report s).pending = s.pending ∧
    (copyWriteOutcome m report s).link.enables = s.link.enables ∧
    (copyWriteOutcome m report s).link.response = s.link.response := by
  unfold copyWriteOutcome
  try dsimp only
  repeat' split
  all_goals simp

@[simp] theorem markLate_frame (line : Nat) (s : State) :
    (markLate line s).unit = s.unit ∧ (markLate line s).time = s.time ∧ (markLate line s).host = s.host ∧
    (markLate line s).buf = s.buf ∧ (markLate line s).map = s.map ∧ (markLate line s).media = s.media ∧
    (markLate line s).jrn = s.jrn ∧ (markLate line s).health = s.health ∧ (markLate line s).link = s.link ∧
    (markLate line s).out = s.out ∧ (markLate line s).pending = s.pending := by
  unfold markLate
  try dsimp only
  repeat' split
  all_goals simp

theorem lateCopyStart?_frame (s : State) {t : State} (h : lateCopyStart? s = some t) :
    t.unit = s.unit ∧ t.time = s.time ∧ t.host = s.host ∧ t.buf = s.buf ∧ t.map = s.map ∧ t.jrn = s.jrn ∧
    t.health = s.health ∧ t.link = s.link ∧ t.out = s.out ∧ t.pending = s.pending := by
  unfold lateCopyStart? at h
  repeat' split at h
  all_goals first | contradiction | (simp only [Option.some.injEq] at h; subst h; simp)

@[simp] theorem lateRecord_frame (m : Migration) (i : Nat) (s : State) :
    (lateRecord m i s).unit = s.unit ∧ (lateRecord m i s).time = s.time ∧
    (lateRecord m i s).host = s.host ∧ (lateRecord m i s).buf = s.buf ∧
    (lateRecord m i s).map = s.map ∧ (lateRecord m i s).media = s.media ∧
    (lateRecord m i s).health = s.health ∧ (lateRecord m i s).out = s.out ∧
    (lateRecord m i s).pending = s.pending ∧ (lateRecord m i s).link.enables = s.link.enables ∧
    (lateRecord m i s).link.response = s.link.response := by
  unfold lateRecord
  try dsimp only
  all_goals simp

@[simp] theorem lateReadOutcome_frame (m : Migration) (c : LateCopy) (o : ReadOutcome LineData) (s : State) :
    (lateReadOutcome m c o s).unit = s.unit ∧ (lateReadOutcome m c o s).time = s.time ∧
    (lateReadOutcome m c o s).host = s.host ∧ (lateReadOutcome m c o s).buf = s.buf ∧
    (lateReadOutcome m c o s).health = s.health ∧ (lateReadOutcome m c o s).out = s.out ∧
    (lateReadOutcome m c o s).pending = s.pending ∧ (lateReadOutcome m c o s).link.enables = s.link.enables ∧
    (lateReadOutcome m c o s).link.response = s.link.response := by
  unfold lateReadOutcome
  try dsimp only
  repeat' split
  all_goals simp

@[simp] theorem lateWriteDone_frame (c : LateCopy) (s : State) :
    (lateWriteDone c s).unit = s.unit ∧ (lateWriteDone c s).time = s.time ∧ (lateWriteDone c s).host = s.host ∧
    (lateWriteDone c s).buf = s.buf ∧ (lateWriteDone c s).map = s.map ∧ (lateWriteDone c s).media = s.media ∧
    (lateWriteDone c s).jrn = s.jrn ∧ (lateWriteDone c s).health = s.health ∧ (lateWriteDone c s).link = s.link ∧
    (lateWriteDone c s).out = s.out ∧ (lateWriteDone c s).pending = s.pending := by
  simp [lateWriteDone]

@[simp] theorem lateWriteFail_frame (m : Migration) (c : LateCopy) (s : State) :
    (lateWriteFail m c s).unit = s.unit ∧ (lateWriteFail m c s).time = s.time ∧
    (lateWriteFail m c s).host = s.host ∧ (lateWriteFail m c s).buf = s.buf ∧ (lateWriteFail m c s).map = s.map ∧
    (lateWriteFail m c s).media = s.media ∧ (lateWriteFail m c s).health = s.health ∧
    (lateWriteFail m c s).out = s.out ∧ (lateWriteFail m c s).pending = s.pending ∧
    (lateWriteFail m c s).link.enables = s.link.enables ∧ (lateWriteFail m c s).link.response = s.link.response := by
  unfold lateWriteFail
  try dsimp only
  repeat' split
  all_goals simp

@[simp] theorem lateRecordDurable_frame (line : Nat) (s : State) :
    (lateRecordDurable line s).unit = s.unit ∧ (lateRecordDurable line s).time = s.time ∧
    (lateRecordDurable line s).host = s.host ∧ (lateRecordDurable line s).buf = s.buf ∧
    (lateRecordDurable line s).media = s.media ∧ (lateRecordDurable line s).jrn = s.jrn ∧
    (lateRecordDurable line s).health = s.health ∧ (lateRecordDurable line s).link = s.link ∧
    (lateRecordDurable line s).out = s.out ∧ (lateRecordDurable line s).pending = s.pending := by
  unfold lateRecordDurable
  try dsimp only
  repeat' split
  all_goals simp

@[simp] theorem releaseSource_frame (m : Migration) (s : State) :
    (releaseSource m s).unit = s.unit ∧ (releaseSource m s).time = s.time ∧ (releaseSource m s).host = s.host ∧
    (releaseSource m s).buf = s.buf ∧ (releaseSource m s).mig = s.mig ∧ (releaseSource m s).media = s.media ∧
    (releaseSource m s).jrn = s.jrn ∧ (releaseSource m s).health = s.health ∧ (releaseSource m s).link = s.link ∧
    (releaseSource m s).out = s.out ∧ (releaseSource m s).pending = s.pending := by
  unfold releaseSource
  try dsimp only
  repeat' split
  all_goals simp

@[simp] theorem switchTables_frame (m : Migration) (s : State) :
    (switchTables m s).unit = s.unit ∧ (switchTables m s).time = s.time ∧ (switchTables m s).host = s.host ∧
    (switchTables m s).buf = s.buf ∧ (switchTables m s).mig = s.mig ∧ (switchTables m s).media = s.media ∧
    (switchTables m s).jrn = s.jrn ∧ (switchTables m s).health = s.health ∧ (switchTables m s).link = s.link ∧
    (switchTables m s).out = s.out ∧ (switchTables m s).pending = s.pending := by
  unfold switchTables
  try dsimp only
  all_goals simp

@[simp] theorem checkNewFrame_frame (frame : Nat) (s : State) :
    (checkNewFrame frame s).unit = s.unit ∧ (checkNewFrame frame s).time = s.time ∧
    (checkNewFrame frame s).host = s.host ∧ (checkNewFrame frame s).buf = s.buf ∧
    (checkNewFrame frame s).media = s.media ∧ (checkNewFrame frame s).jrn = s.jrn ∧
    (checkNewFrame frame s).health = s.health ∧ (checkNewFrame frame s).out = s.out ∧
    (checkNewFrame frame s).pending = s.pending ∧ (checkNewFrame frame s).link.enables = s.link.enables ∧
    (checkNewFrame frame s).link.response = s.link.response := by
  unfold checkNewFrame
  try dsimp only
  repeat' split
  all_goals simp

@[simp] theorem switchMigration_frame (m : Migration) (s : State) :
    (switchMigration m s).unit = s.unit ∧ (switchMigration m s).time = s.time ∧
    (switchMigration m s).host = s.host ∧ (switchMigration m s).buf = s.buf ∧
    (switchMigration m s).media = s.media ∧ (switchMigration m s).jrn = s.jrn ∧
    (switchMigration m s).out = s.out ∧ (switchMigration m s).pending = s.pending ∧
    (switchMigration m s).link.enables = s.link.enables ∧ (switchMigration m s).link.response = s.link.response := by
  unfold switchMigration
  try dsimp only
  all_goals simp

theorem migrationSwitch?_frame (s : State) {t : State} (h : migrationSwitch? s = some t) :
    t.unit = s.unit ∧ t.time = s.time ∧ t.host = s.host ∧ t.buf = s.buf ∧ t.media = s.media ∧ t.jrn = s.jrn ∧
    t.out = s.out ∧ t.pending = s.pending ∧ t.link.enables = s.link.enables ∧ t.link.response = s.link.response := by
  unfold migrationSwitch? at h
  repeat' split at h
  all_goals first | contradiction | (simp only [Option.some.injEq] at h; subst h; simp)

/-! ### UnitControl -/

@[simp] theorem enterFailed_frame (cause : FailCause) (s : State) :
    (enterFailed cause s).time = s.time ∧ (enterFailed cause s).buf = s.buf ∧ (enterFailed cause s).map = s.map ∧
    (enterFailed cause s).mig = s.mig ∧ (enterFailed cause s).health = s.health ∧
    (enterFailed cause s).pending = s.pending ∧ (enterFailed cause s).link.enables = s.link.enables ∧
    (enterFailed cause s).link.response = s.link.response := by
  unfold enterFailed
  try dsimp only
  repeat' split
  all_goals simp

@[simp] theorem hardReset_frame (s : State) :
    (hardReset s).pending = s.pending := by
  unfold hardReset
  try dsimp only

@[simp] theorem abandonToSafe_frame (s : State) :
    (abandonToSafe s).time = s.time ∧ (abandonToSafe s).host = s.host ∧ (abandonToSafe s).buf = s.buf ∧
    (abandonToSafe s).mig = s.mig ∧ (abandonToSafe s).jrn = s.jrn ∧ (abandonToSafe s).health = s.health ∧
    (abandonToSafe s).out = s.out ∧ (abandonToSafe s).pending = s.pending ∧
    (abandonToSafe s).link.enables = s.link.enables ∧ (abandonToSafe s).link.response = s.link.response := by
  unfold abandonToSafe
  try dsimp only
  all_goals simp

@[simp] theorem startRecovery_frame (s : State) :
    (startRecovery s).time = s.time ∧ (startRecovery s).host = s.host ∧ (startRecovery s).buf = s.buf ∧
    (startRecovery s).mig = s.mig ∧ (startRecovery s).jrn = s.jrn ∧ (startRecovery s).health = s.health ∧
    (startRecovery s).out = s.out ∧ (startRecovery s).pending = s.pending ∧
    (startRecovery s).link.enables = s.link.enables ∧ (startRecovery s).link.response = s.link.response := by
  unfold startRecovery
  try dsimp only
  repeat' split
  all_goals simp

@[simp] theorem volatileReset_frame (s : State) :
    (volatileReset s).pending = s.pending := by
  unfold volatileReset
  try dsimp only
  all_goals simp

@[simp] theorem leaveSafe_frame (s : State) :
    (leaveSafe s).time = s.time ∧ (leaveSafe s).host = s.host ∧ (leaveSafe s).buf = s.buf ∧
    (leaveSafe s).map = s.map ∧ (leaveSafe s).mig = s.mig ∧ (leaveSafe s).media = s.media ∧
    (leaveSafe s).health = s.health ∧ (leaveSafe s).out = s.out ∧ (leaveSafe s).pending = s.pending ∧
    (leaveSafe s).link.enables = s.link.enables ∧ (leaveSafe s).link.response = s.link.response := by
  unfold leaveSafe
  try dsimp only
  repeat' split
  all_goals simp

@[simp] theorem leaveSafeDrainLock_frame (s : State) :
    (leaveSafeDrainLock s).time = s.time ∧ (leaveSafeDrainLock s).host = s.host ∧
    (leaveSafeDrainLock s).buf = s.buf ∧ (leaveSafeDrainLock s).mig = s.mig ∧
    (leaveSafeDrainLock s).health = s.health ∧ (leaveSafeDrainLock s).out = s.out ∧
    (leaveSafeDrainLock s).pending = s.pending ∧ (leaveSafeDrainLock s).link.enables = s.link.enables ∧
    (leaveSafeDrainLock s).link.response = s.link.response := by
  unfold leaveSafeDrainLock
  try dsimp only
  repeat' split
  all_goals simp

@[simp] theorem enterSafe_frame (origin : SafeOrigin) (s : State) :
    (enterSafe origin s).time = s.time ∧ (enterSafe origin s).host = s.host ∧ (enterSafe origin s).buf = s.buf ∧
    (enterSafe origin s).mig = s.mig ∧ (enterSafe origin s).health = s.health ∧ (enterSafe origin s).out = s.out ∧
    (enterSafe origin s).pending = s.pending ∧ (enterSafe origin s).link.enables = s.link.enables ∧
    (enterSafe origin s).link.response = s.link.response := by
  unfold enterSafe
  try dsimp only
  repeat' split
  all_goals simp

@[simp] theorem closingEnds_frame (s : State) :
    (closingEnds s).pending = s.pending := by
  unfold closingEnds
  try dsimp only
  repeat' split
  all_goals simp

@[simp] theorem shutdownDurable_frame (s : State) :
    (shutdownDurable s).pending = s.pending := by
  unfold shutdownDurable
  try dsimp only
  repeat' split
  all_goals simp

@[simp] theorem emptyQueue_frame (s : State) :
    (emptyQueue s).unit = s.unit ∧ (emptyQueue s).time = s.time ∧ (emptyQueue s).host = s.host ∧
    (emptyQueue s).buf = s.buf ∧ (emptyQueue s).map = s.map ∧ (emptyQueue s).media = s.media ∧
    (emptyQueue s).jrn = s.jrn ∧ (emptyQueue s).health = s.health ∧ (emptyQueue s).link = s.link ∧
    (emptyQueue s).out = s.out ∧ (emptyQueue s).pending = s.pending := by
  unfold emptyQueue
  try dsimp only
  all_goals simp

@[simp] theorem abortForDrainLock_frame (s : State) :
    (abortForDrainLock s).unit = s.unit ∧ (abortForDrainLock s).time = s.time ∧
    (abortForDrainLock s).host = s.host ∧ (abortForDrainLock s).buf = s.buf ∧ (abortForDrainLock s).map = s.map ∧
    (abortForDrainLock s).jrn = s.jrn ∧ (abortForDrainLock s).health = s.health ∧
    (abortForDrainLock s).link = s.link ∧ (abortForDrainLock s).out = s.out ∧
    (abortForDrainLock s).pending = s.pending := by
  unfold abortForDrainLock
  try dsimp only
  repeat' split
  all_goals simp

@[simp] theorem enterDrainLock_frame (s : State) :
    (enterDrainLock s).time = s.time ∧ (enterDrainLock s).health = s.health ∧
    (enterDrainLock s).pending = s.pending ∧ (enterDrainLock s).link.enables = s.link.enables ∧
    (enterDrainLock s).link.response = s.link.response := by
  unfold enterDrainLock
  try dsimp only
  all_goals simp

@[simp] theorem enterClosing_frame (restart : Bool) (s : State) :
    (enterClosing restart s).time = s.time ∧ (enterClosing restart s).jrn = s.jrn ∧
    (enterClosing restart s).health = s.health ∧ (enterClosing restart s).pending = s.pending ∧
    (enterClosing restart s).link.enables = s.link.enables ∧
    (enterClosing restart s).link.response = s.link.response := by
  unfold enterClosing
  try dsimp only
  all_goals simp

@[simp] theorem toShutdown_frame (s : State) :
    (toShutdown s).time = s.time ∧ (toShutdown s).host = s.host ∧ (toShutdown s).buf = s.buf ∧
    (toShutdown s).map = s.map ∧ (toShutdown s).mig = s.mig ∧ (toShutdown s).media = s.media ∧
    (toShutdown s).health = s.health ∧ (toShutdown s).out = s.out ∧ (toShutdown s).pending = s.pending ∧
    (toShutdown s).link.enables = s.link.enables ∧ (toShutdown s).link.response = s.link.response := by
  unfold toShutdown
  try dsimp only
  all_goals simp

theorem drainLockEmptyingEnd?_frame (s : State) {t : State} (h : drainLockEmptyingEnd? s = some t) :
    t.time = s.time ∧ t.host = s.host ∧ t.buf = s.buf ∧ t.map = s.map ∧ t.mig = s.mig ∧ t.media = s.media ∧
    t.health = s.health ∧ t.out = s.out ∧ t.pending = s.pending ∧ t.link.enables = s.link.enables ∧
    t.link.response = s.link.response := by
  unfold drainLockEmptyingEnd? at h
  repeat' split at h
  all_goals first | contradiction | (simp only [Option.some.injEq] at h; subst h; simp)

theorem closingEmptyingEnd?_frame (s : State) {t : State} (h : closingEmptyingEnd? s = some t) :
    t.time = s.time ∧ t.host = s.host ∧ t.buf = s.buf ∧ t.map = s.map ∧ t.mig = s.mig ∧ t.media = s.media ∧
    t.jrn = s.jrn ∧ t.health = s.health ∧ t.link = s.link ∧ t.out = s.out ∧ t.pending = s.pending := by
  unfold closingEmptyingEnd? at h
  repeat' split at h
  all_goals first | contradiction | (simp only [Option.some.injEq] at h; subst h; simp)

theorem closingCheckpointStart?_frame (s : State) {t : State} (h : closingCheckpointStart? s = some t) :
    t.unit = s.unit ∧ t.time = s.time ∧ t.host = s.host ∧ t.buf = s.buf ∧ t.map = s.map ∧ t.mig = s.mig ∧
    t.media = s.media ∧ t.health = s.health ∧ t.link = s.link ∧ t.out = s.out ∧ t.pending = s.pending := by
  unfold closingCheckpointStart? at h
  repeat' split at h
  all_goals first | contradiction | (simp only [Option.some.injEq] at h; subst h; simp)

@[simp] theorem commitCheckpoint_frame (c : Checkpoint) (s : State) :
    (commitCheckpoint c s).pending = s.pending := by
  unfold commitCheckpoint
  try dsimp only
  repeat' split
  all_goals simp

@[simp] theorem failCheckpoint_frame (c : Checkpoint) (s : State) :
    (failCheckpoint c s).time = s.time ∧ (failCheckpoint c s).host = s.host ∧ (failCheckpoint c s).buf = s.buf ∧
    (failCheckpoint c s).map = s.map ∧ (failCheckpoint c s).mig = s.mig ∧ (failCheckpoint c s).media = s.media ∧
    (failCheckpoint c s).health = s.health ∧ (failCheckpoint c s).out = s.out ∧
    (failCheckpoint c s).pending = s.pending ∧ (failCheckpoint c s).link.enables = s.link.enables ∧
    (failCheckpoint c s).link.response = s.link.response := by
  unfold failCheckpoint
  try dsimp only
  repeat' split
  all_goals simp

@[simp] theorem imageLineDone_frame (c : Checkpoint) (s : State) :
    (imageLineDone c s).unit = s.unit ∧ (imageLineDone c s).time = s.time ∧ (imageLineDone c s).host = s.host ∧
    (imageLineDone c s).buf = s.buf ∧ (imageLineDone c s).map = s.map ∧ (imageLineDone c s).mig = s.mig ∧
    (imageLineDone c s).health = s.health ∧ (imageLineDone c s).link = s.link ∧ (imageLineDone c s).out = s.out ∧
    (imageLineDone c s).pending = s.pending := by
  unfold imageLineDone
  try dsimp only
  repeat' split
  all_goals simp

@[simp] theorem checkpointOutcome_frame (report : WriteReport) (s : State) :
    (checkpointOutcome report s).pending = s.pending := by
  unfold checkpointOutcome
  try dsimp only
  repeat' split
  all_goals simp

/-! ### Drains -/

@[simp] theorem countLost_frame (s : State) :
    (countLost s).unit = s.unit ∧ (countLost s).time = s.time ∧ (countLost s).host = s.host ∧
    (countLost s).buf = s.buf ∧ (countLost s).map = s.map ∧ (countLost s).mig = s.mig ∧
    (countLost s).media = s.media ∧ (countLost s).jrn = s.jrn ∧ (countLost s).out = s.out ∧
    (countLost s).pending = s.pending ∧ (countLost s).link.enables = s.link.enables ∧
    (countLost s).link.response = s.link.response := by
  unfold countLost
  try dsimp only
  all_goals simp

@[simp] theorem drainToWrite_frame (d : Drain) (line : LineData) (s : State) :
    (drainToWrite d line s).unit = s.unit ∧ (drainToWrite d line s).time = s.time ∧
    (drainToWrite d line s).host = s.host ∧ (drainToWrite d line s).map = s.map ∧
    (drainToWrite d line s).mig = s.mig ∧ (drainToWrite d line s).jrn = s.jrn ∧
    (drainToWrite d line s).health = s.health ∧ (drainToWrite d line s).link = s.link ∧
    (drainToWrite d line s).out = s.out ∧ (drainToWrite d line s).pending = s.pending := by
  unfold drainToWrite
  try dsimp only
  all_goals simp

@[simp] theorem fillOutcome_frame (d : Drain) (o : ReadOutcome LineData) (s : State) :
    (fillOutcome d o s).unit = s.unit ∧ (fillOutcome d o s).time = s.time ∧ (fillOutcome d o s).host = s.host ∧
    (fillOutcome d o s).health = s.health ∧ (fillOutcome d o s).out = s.out ∧
    (fillOutcome d o s).pending = s.pending ∧ (fillOutcome d o s).link.enables = s.link.enables ∧
    (fillOutcome d o s).link.response = s.link.response := by
  unfold fillOutcome
  try dsimp only
  repeat' split
  all_goals simp

@[simp] theorem endOrClear_frame (d : Drain) (s : State) :
    (endOrClear d s).unit = s.unit ∧ (endOrClear d s).time = s.time ∧ (endOrClear d s).host = s.host ∧
    (endOrClear d s).media = s.media ∧ (endOrClear d s).health = s.health ∧ (endOrClear d s).out = s.out ∧
    (endOrClear d s).pending = s.pending ∧ (endOrClear d s).link.enables = s.link.enables ∧
    (endOrClear d s).link.response = s.link.response := by
  unfold endOrClear
  try dsimp only
  repeat' split
  all_goals simp

@[simp] theorem drainDone_frame (d : Drain) (s : State) :
    (drainDone d s).unit = s.unit ∧ (drainDone d s).time = s.time ∧ (drainDone d s).host = s.host ∧
    (drainDone d s).media = s.media ∧ (drainDone d s).out = s.out ∧ (drainDone d s).pending = s.pending ∧
    (drainDone d s).link.enables = s.link.enables ∧ (drainDone d s).link.response = s.link.response := by
  unfold drainDone
  try dsimp only
  all_goals simp

@[simp] theorem drainFailOnce_frame (d : Drain) (s : State) :
    (drainFailOnce d s).unit = s.unit ∧ (drainFailOnce d s).time = s.time ∧ (drainFailOnce d s).host = s.host ∧
    (drainFailOnce d s).mig = s.mig ∧ (drainFailOnce d s).media = s.media ∧ (drainFailOnce d s).jrn = s.jrn ∧
    (drainFailOnce d s).health = s.health ∧ (drainFailOnce d s).link = s.link ∧ (drainFailOnce d s).out = s.out ∧
    (drainFailOnce d s).pending = s.pending := by
  unfold drainFailOnce
  try dsimp only
  repeat' split
  all_goals simp

@[simp] theorem drainLoses_frame (d : Drain) (s : State) :
    (drainLoses d s).unit = s.unit ∧ (drainLoses d s).time = s.time ∧ (drainLoses d s).host = s.host ∧
    (drainLoses d s).map = s.map ∧ (drainLoses d s).mig = s.mig ∧ (drainLoses d s).media = s.media ∧
    (drainLoses d s).out = s.out ∧ (drainLoses d s).pending = s.pending ∧
    (drainLoses d s).link.enables = s.link.enables ∧ (drainLoses d s).link.response = s.link.response := by
  unfold drainLoses
  try dsimp only
  repeat' split
  all_goals simp

@[simp] theorem drainFails_frame (d : Drain) (s : State) :
    (drainFails d s).unit = s.unit ∧ (drainFails d s).time = s.time ∧ (drainFails d s).host = s.host ∧
    (drainFails d s).media = s.media ∧ (drainFails d s).out = s.out ∧ (drainFails d s).pending = s.pending ∧
    (drainFails d s).link.enables = s.link.enables ∧ (drainFails d s).link.response = s.link.response := by
  unfold drainFails
  try dsimp only
  repeat' split
  all_goals simp

@[simp] theorem drainRecordDurable_frame (d : Drain) (s : State) :
    (drainRecordDurable d s).unit = s.unit ∧ (drainRecordDurable d s).time = s.time ∧
    (drainRecordDurable d s).jrn = s.jrn ∧ (drainRecordDurable d s).pending = s.pending ∧
    (drainRecordDurable d s).link.enables = s.link.enables ∧
    (drainRecordDurable d s).link.response = s.link.response := by
  unfold drainRecordDurable
  try dsimp only
  repeat' split
  all_goals simp

@[simp] theorem recordEffect_frame (c : Creator) (r : JournalRecord) (s : State) :
    (recordEffect c r s).pending = s.pending := by
  unfold recordEffect
  try dsimp only
  repeat' split
  all_goals simp

@[simp] theorem recordOutcome_frame (report : WriteReport) (s : State) :
    (recordOutcome report s).pending = s.pending := by
  unfold recordOutcome
  try dsimp only
  repeat' split
  all_goals simp

/-! ### Format -/

@[simp] theorem formatClear_frame (s : State) :
    (formatClear s).time = s.time ∧ (formatClear s).host = s.host ∧ (formatClear s).media = s.media ∧
    (formatClear s).link = s.link ∧ (formatClear s).out = s.out ∧ (formatClear s).pending = s.pending := by
  unfold formatClear
  try dsimp only
  all_goals simp

@[simp] theorem startFormat_frame (spares retireWear : Nat) (s : State) :
    (startFormat spares retireWear s).time = s.time ∧ (startFormat spares retireWear s).host = s.host ∧
    (startFormat spares retireWear s).out = s.out ∧ (startFormat spares retireWear s).pending = s.pending ∧
    (startFormat spares retireWear s).link.enables = s.link.enables ∧
    (startFormat spares retireWear s).link.response = s.link.response := by
  unfold startFormat
  try dsimp only
  all_goals simp

@[simp] theorem requestFormatStep_frame (w : FormatWork) (s : State) :
    (requestFormatStep w s).time = s.time ∧ (requestFormatStep w s).host = s.host ∧
    (requestFormatStep w s).buf = s.buf ∧ (requestFormatStep w s).map = s.map ∧
    (requestFormatStep w s).mig = s.mig ∧ (requestFormatStep w s).jrn = s.jrn ∧
    (requestFormatStep w s).health = s.health ∧ (requestFormatStep w s).link = s.link ∧
    (requestFormatStep w s).out = s.out ∧ (requestFormatStep w s).pending = s.pending := by
  unfold requestFormatStep
  try dsimp only
  all_goals simp

@[simp] theorem formatReadOutcome_frame (w : FormatWork) (o : Option MetaLine) (s : State) :
    (formatReadOutcome w o s).time = s.time ∧ (formatReadOutcome w o s).host = s.host ∧
    (formatReadOutcome w o s).buf = s.buf ∧ (formatReadOutcome w o s).map = s.map ∧
    (formatReadOutcome w o s).mig = s.mig ∧ (formatReadOutcome w o s).jrn = s.jrn ∧
    (formatReadOutcome w o s).health = s.health ∧ (formatReadOutcome w o s).link = s.link ∧
    (formatReadOutcome w o s).out = s.out ∧ (formatReadOutcome w o s).pending = s.pending := by
  unfold formatReadOutcome
  try dsimp only
  all_goals simp

@[simp] theorem completeFormat_frame (w : FormatWork) (s : State) :
    (completeFormat w s).host = s.host ∧ (completeFormat w s).buf = s.buf ∧ (completeFormat w s).mig = s.mig ∧
    (completeFormat w s).media = s.media ∧ (completeFormat w s).health = s.health ∧
    (completeFormat w s).out = s.out ∧ (completeFormat w s).pending = s.pending ∧
    (completeFormat w s).link.enables = s.link.enables ∧ (completeFormat w s).link.response = s.link.response := by
  unfold completeFormat
  try dsimp only
  all_goals simp

@[simp] theorem formatWriteOutcome_frame (w : FormatWork) (report : WriteReport) (s : State) :
    (formatWriteOutcome w report s).buf = s.buf ∧ (formatWriteOutcome w report s).mig = s.mig ∧
    (formatWriteOutcome w report s).health = s.health ∧ (formatWriteOutcome w report s).pending = s.pending ∧
    (formatWriteOutcome w report s).link.enables = s.link.enables ∧
    (formatWriteOutcome w report s).link.response = s.link.response := by
  unfold formatWriteOutcome
  try dsimp only
  repeat' split
  all_goals simp

/-! ### Recovery -/

@[simp] theorem readNext_frame (w : RecoveryWork) (physical : Nat) (s : State) :
    (readNext w physical s).time = s.time ∧ (readNext w physical s).host = s.host ∧
    (readNext w physical s).buf = s.buf ∧ (readNext w physical s).map = s.map ∧
    (readNext w physical s).mig = s.mig ∧ (readNext w physical s).jrn = s.jrn ∧
    (readNext w physical s).health = s.health ∧ (readNext w physical s).link = s.link ∧
    (readNext w physical s).out = s.out ∧ (readNext w physical s).pending = s.pending := by
  unfold readNext
  try dsimp only
  all_goals simp

@[simp] theorem endUnformatted_frame (standing : Standing) (found : Option GeometryRecord) (s : State) :
    (endUnformatted standing found s).time = s.time ∧ (endUnformatted standing found s).host = s.host ∧
    (endUnformatted standing found s).buf = s.buf ∧ (endUnformatted standing found s).map = s.map ∧
    (endUnformatted standing found s).mig = s.mig ∧ (endUnformatted standing found s).media = s.media ∧
    (endUnformatted standing found s).jrn = s.jrn ∧ (endUnformatted standing found s).health = s.health ∧
    (endUnformatted standing found s).out = s.out ∧ (endUnformatted standing found s).pending = s.pending ∧
    (endUnformatted standing found s).link.enables = s.link.enables ∧
    (endUnformatted standing found s).link.response = s.link.response := by
  unfold endUnformatted
  try dsimp only
  all_goals simp

@[simp] theorem recoverGeometry_frame (w : RecoveryWork) (delivered : Option MetaLine) (s : State) :
    (recoverGeometry w delivered s).time = s.time ∧ (recoverGeometry w delivered s).host = s.host ∧
    (recoverGeometry w delivered s).buf = s.buf ∧ (recoverGeometry w delivered s).map = s.map ∧
    (recoverGeometry w delivered s).mig = s.mig ∧ (recoverGeometry w delivered s).jrn = s.jrn ∧
    (recoverGeometry w delivered s).health = s.health ∧ (recoverGeometry w delivered s).out = s.out ∧
    (recoverGeometry w delivered s).pending = s.pending ∧
    (recoverGeometry w delivered s).link.enables = s.link.enables ∧
    (recoverGeometry w delivered s).link.response = s.link.response := by
  unfold recoverGeometry
  try dsimp only
  repeat' split
  all_goals simp

@[simp] theorem readImage_frame (w : RecoveryWork) (s : State) :
    (readImage w s).time = s.time ∧ (readImage w s).buf = s.buf ∧ (readImage w s).map = s.map ∧
    (readImage w s).mig = s.mig ∧ (readImage w s).health = s.health ∧ (readImage w s).pending = s.pending ∧
    (readImage w s).link.enables = s.link.enables ∧ (readImage w s).link.response = s.link.response := by
  unfold readImage
  try dsimp only
  repeat' split
  all_goals simp

@[simp] theorem recoverHeaderA_frame (w : RecoveryWork) (delivered : Option MetaLine) (s : State) :
    (recoverHeaderA w delivered s).time = s.time ∧ (recoverHeaderA w delivered s).host = s.host ∧
    (recoverHeaderA w delivered s).buf = s.buf ∧ (recoverHeaderA w delivered s).map = s.map ∧
    (recoverHeaderA w delivered s).mig = s.mig ∧ (recoverHeaderA w delivered s).jrn = s.jrn ∧
    (recoverHeaderA w delivered s).health = s.health ∧ (recoverHeaderA w delivered s).link = s.link ∧
    (recoverHeaderA w delivered s).out = s.out ∧ (recoverHeaderA w delivered s).pending = s.pending := by
  unfold recoverHeaderA
  try dsimp only
  all_goals simp

@[simp] theorem recoverHeaderB_frame (w : RecoveryWork) (delivered : Option MetaLine) (s : State) :
    (recoverHeaderB w delivered s).time = s.time ∧ (recoverHeaderB w delivered s).buf = s.buf ∧
    (recoverHeaderB w delivered s).map = s.map ∧ (recoverHeaderB w delivered s).mig = s.mig ∧
    (recoverHeaderB w delivered s).health = s.health ∧ (recoverHeaderB w delivered s).pending = s.pending ∧
    (recoverHeaderB w delivered s).link.enables = s.link.enables ∧
    (recoverHeaderB w delivered s).link.response = s.link.response := by
  unfold recoverHeaderB
  try dsimp only
  all_goals simp

@[simp] theorem rejectArea_frame (inconsistent : Bool) (w : RecoveryWork) (s : State) :
    (rejectArea inconsistent w s).time = s.time ∧ (rejectArea inconsistent w s).buf = s.buf ∧
    (rejectArea inconsistent w s).map = s.map ∧ (rejectArea inconsistent w s).mig = s.mig ∧
    (rejectArea inconsistent w s).health = s.health ∧ (rejectArea inconsistent w s).pending = s.pending ∧
    (rejectArea inconsistent w s).link.enables = s.link.enables ∧
    (rejectArea inconsistent w s).link.response = s.link.response := by
  unfold rejectArea
  try dsimp only
  all_goals simp

@[simp] theorem acceptArea_frame (area : Area) (h : CheckpointHeader) (t : Tables) (w : RecoveryWork) (s : State) :
    (acceptArea area h t w s).time = s.time ∧ (acceptArea area h t w s).host = s.host ∧
    (acceptArea area h t w s).buf = s.buf ∧ (acceptArea area h t w s).map = s.map ∧
    (acceptArea area h t w s).mig = s.mig ∧ (acceptArea area h t w s).health = s.health ∧
    (acceptArea area h t w s).link = s.link ∧ (acceptArea area h t w s).out = s.out ∧
    (acceptArea area h t w s).pending = s.pending := by
  unfold acceptArea
  try dsimp only
  all_goals simp

@[simp] theorem judgeImage_frame (area : Area) (h : CheckpointHeader) (g : GeometryRecord) (x : ImageWork) (w : RecoveryWork) (s : State) :
    (judgeImage area h g x w s).time = s.time ∧ (judgeImage area h g x w s).buf = s.buf ∧
    (judgeImage area h g x w s).map = s.map ∧ (judgeImage area h g x w s).mig = s.mig ∧
    (judgeImage area h g x w s).health = s.health ∧ (judgeImage area h g x w s).pending = s.pending ∧
    (judgeImage area h g x w s).link.enables = s.link.enables ∧
    (judgeImage area h g x w s).link.response = s.link.response := by
  unfold judgeImage
  try dsimp only
  repeat' split
  all_goals simp

@[simp] theorem recoverImageLine_frame (x : ImageWork) (w : RecoveryWork) (delivered : Option MetaLine) (s : State) :
    (recoverImageLine x w delivered s).time = s.time ∧ (recoverImageLine x w delivered s).buf = s.buf ∧
    (recoverImageLine x w delivered s).map = s.map ∧ (recoverImageLine x w delivered s).mig = s.mig ∧
    (recoverImageLine x w delivered s).health = s.health ∧
    (recoverImageLine x w delivered s).pending = s.pending ∧
    (recoverImageLine x w delivered s).link.enables = s.link.enables ∧
    (recoverImageLine x w delivered s).link.response = s.link.response := by
  unfold recoverImageLine
  try dsimp only
  repeat' split
  all_goals simp

@[simp] theorem endReplay_frame (area : Area) (h : CheckpointHeader) (g : GeometryRecord) (x : ReplayWork) (truncated : Bool) (w : RecoveryWork) (s : State) :
    (endReplay area h g x truncated w s).time = s.time ∧ (endReplay area h g x truncated w s).host = s.host ∧
    (endReplay area h g x truncated w s).buf = s.buf ∧ (endReplay area h g x truncated w s).mig = s.mig ∧
    (endReplay area h g x truncated w s).media = s.media ∧
    (endReplay area h g x truncated w s).health = s.health ∧ (endReplay area h g x truncated w s).out = s.out ∧
    (endReplay area h g x truncated w s).pending = s.pending ∧
    (endReplay area h g x truncated w s).link.enables = s.link.enables ∧
    (endReplay area h g x truncated w s).link.response = s.link.response := by
  unfold endReplay
  try dsimp only
  repeat' split
  all_goals simp

@[simp] theorem recoverSlot_frame (x : ReplayWork) (w : RecoveryWork) (delivered : Option MetaLine) (s : State) :
    (recoverSlot x w delivered s).time = s.time ∧ (recoverSlot x w delivered s).host = s.host ∧
    (recoverSlot x w delivered s).buf = s.buf ∧ (recoverSlot x w delivered s).mig = s.mig ∧
    (recoverSlot x w delivered s).health = s.health ∧ (recoverSlot x w delivered s).out = s.out ∧
    (recoverSlot x w delivered s).pending = s.pending ∧
    (recoverSlot x w delivered s).link.enables = s.link.enables ∧
    (recoverSlot x w delivered s).link.response = s.link.response := by
  unfold recoverSlot
  try dsimp only
  repeat' split
  all_goals simp

@[simp] theorem recoveryOutcome_frame (w : RecoveryWork) (delivered : Option MetaLine) (s : State) :
    (recoveryOutcome w delivered s).time = s.time ∧ (recoveryOutcome w delivered s).buf = s.buf ∧
    (recoveryOutcome w delivered s).mig = s.mig ∧ (recoveryOutcome w delivered s).health = s.health ∧
    (recoveryOutcome w delivered s).pending = s.pending ∧
    (recoveryOutcome w delivered s).link.enables = s.link.enables ∧
    (recoveryOutcome w delivered s).link.response = s.link.response := by
  unfold recoveryOutcome
  try dsimp only
  repeat' split
  all_goals simp

/-! ### TimeBase -/

@[simp] theorem installSettings_frame (s : State) :
    (installSettings s).unit = s.unit ∧ (installSettings s).host = s.host ∧ (installSettings s).map = s.map ∧
    (installSettings s).mig = s.mig ∧ (installSettings s).media = s.media ∧ (installSettings s).jrn = s.jrn ∧
    (installSettings s).health = s.health ∧ (installSettings s).out = s.out ∧
    (installSettings s).pending = s.pending ∧ (installSettings s).link.enables = s.link.enables ∧
    (installSettings s).link.response = s.link.response := by
  unfold installSettings
  try dsimp only
  all_goals simp

@[simp] theorem commitSettingsNow_frame (s : State) :
    (commitSettingsNow s).unit = s.unit ∧ (commitSettingsNow s).host = s.host ∧
    (commitSettingsNow s).map = s.map ∧ (commitSettingsNow s).mig = s.mig ∧
    (commitSettingsNow s).media = s.media ∧ (commitSettingsNow s).jrn = s.jrn ∧
    (commitSettingsNow s).health = s.health ∧ (commitSettingsNow s).out = s.out ∧
    (commitSettingsNow s).pending = s.pending ∧ (commitSettingsNow s).link.enables = s.link.enables ∧
    (commitSettingsNow s).link.response = s.link.response := by
  unfold commitSettingsNow
  try dsimp only
  repeat' split
  all_goals simp

@[simp] theorem evaluateHealth_frame (s : State) :
    (evaluateHealth s).unit = s.unit ∧ (evaluateHealth s).time = s.time ∧ (evaluateHealth s).host = s.host ∧
    (evaluateHealth s).buf = s.buf ∧ (evaluateHealth s).map = s.map ∧ (evaluateHealth s).mig = s.mig ∧
    (evaluateHealth s).media = s.media ∧ (evaluateHealth s).jrn = s.jrn ∧ (evaluateHealth s).out = s.out ∧
    (evaluateHealth s).pending = s.pending ∧ (evaluateHealth s).link.enables = s.link.enables ∧
    (evaluateHealth s).link.response = s.link.response := by
  unfold evaluateHealth
  try dsimp only
  repeat' split
  all_goals simp

@[simp] theorem countSweep_frame (s : State) :
    (countSweep s).unit = s.unit ∧ (countSweep s).host = s.host ∧ (countSweep s).buf = s.buf ∧
    (countSweep s).map = s.map ∧ (countSweep s).mig = s.mig ∧ (countSweep s).media = s.media ∧
    (countSweep s).health = s.health ∧ (countSweep s).link = s.link ∧ (countSweep s).out = s.out ∧
    (countSweep s).pending = s.pending := by
  unfold countSweep
  try dsimp only
  repeat' split
  all_goals simp

@[simp] theorem boundaryCommit_frame (s : State) :
    (boundaryCommit s).unit = s.unit ∧ (boundaryCommit s).host = s.host ∧ (boundaryCommit s).map = s.map ∧
    (boundaryCommit s).mig = s.mig ∧ (boundaryCommit s).media = s.media ∧ (boundaryCommit s).jrn = s.jrn ∧
    (boundaryCommit s).health = s.health ∧ (boundaryCommit s).out = s.out ∧
    (boundaryCommit s).pending = s.pending ∧ (boundaryCommit s).link.enables = s.link.enables ∧
    (boundaryCommit s).link.response = s.link.response := by
  unfold boundaryCommit
  try dsimp only
  repeat' split
  all_goals simp

@[simp] theorem boundarySweep_frame (s : State) :
    (boundarySweep s).unit = s.unit ∧ (boundarySweep s).host = s.host ∧ (boundarySweep s).buf = s.buf ∧
    (boundarySweep s).map = s.map ∧ (boundarySweep s).media = s.media ∧ (boundarySweep s).out = s.out ∧
    (boundarySweep s).pending = s.pending ∧ (boundarySweep s).link.enables = s.link.enables ∧
    (boundarySweep s).link.response = s.link.response := by
  unfold boundarySweep
  try dsimp only
  repeat' split
  all_goals simp

@[simp] theorem boundaryWork_frame (s : State) :
    (boundaryWork s).unit = s.unit ∧ (boundaryWork s).host = s.host ∧ (boundaryWork s).map = s.map ∧
    (boundaryWork s).media = s.media ∧ (boundaryWork s).out = s.out ∧ (boundaryWork s).pending = s.pending ∧
    (boundaryWork s).link.enables = s.link.enables ∧ (boundaryWork s).link.response = s.link.response := by
  unfold boundaryWork
  try dsimp only
  all_goals simp

@[simp] theorem secondTimeout_frame (op : InFlight) (s : State) :
    (secondTimeout op s).time = s.time ∧ (secondTimeout op s).buf = s.buf ∧ (secondTimeout op s).map = s.map ∧
    (secondTimeout op s).mig = s.mig ∧ (secondTimeout op s).health = s.health ∧
    (secondTimeout op s).pending = s.pending ∧ (secondTimeout op s).link.enables = s.link.enables ∧
    (secondTimeout op s).link.response = s.link.response := by
  unfold secondTimeout
  try dsimp only
  all_goals simp

@[simp] theorem attemptTimesOut_frame (op : InFlight) (s : State) :
    (attemptTimesOut op s).time = s.time ∧ (attemptTimesOut op s).buf = s.buf ∧
    (attemptTimesOut op s).map = s.map ∧ (attemptTimesOut op s).mig = s.mig ∧
    (attemptTimesOut op s).health = s.health ∧ (attemptTimesOut op s).pending = s.pending ∧
    (attemptTimesOut op s).link.enables = s.link.enables ∧ (attemptTimesOut op s).link.response = s.link.response := by
  unfold attemptTimesOut
  try dsimp only
  repeat' split
  all_goals simp

/-! ### Link -/

@[simp] theorem readTransfer_frame (n : Nat) (s : State) :
    (readTransfer n s).unit = s.unit ∧ (readTransfer n s).time = s.time ∧ (readTransfer n s).host = s.host ∧
    (readTransfer n s).buf = s.buf ∧ (readTransfer n s).map = s.map ∧ (readTransfer n s).mig = s.mig ∧
    (readTransfer n s).media = s.media ∧ (readTransfer n s).jrn = s.jrn ∧ (readTransfer n s).health = s.health ∧
    (readTransfer n s).pending = s.pending ∧ (readTransfer n s).link.enables = s.link.enables := by
  unfold readTransfer
  try dsimp only
  repeat' split
  all_goals simp

/-! ### PinCommands -/

@[simp] theorem assertReset_frame (s : State) :
    (assertReset s).pending = s.pending := by
  unfold assertReset
  try dsimp only
  repeat' split
  all_goals simp

@[simp] theorem releaseReset_frame (sizeStraps : BitVec 6) (addrStraps : BitVec 2) (s : State) :
    (releaseReset sizeStraps addrStraps s).host = s.host ∧ (releaseReset sizeStraps addrStraps s).buf = s.buf ∧
    (releaseReset sizeStraps addrStraps s).mig = s.mig ∧ (releaseReset sizeStraps addrStraps s).jrn = s.jrn ∧
    (releaseReset sizeStraps addrStraps s).health = s.health ∧
    (releaseReset sizeStraps addrStraps s).out = s.out ∧
    (releaseReset sizeStraps addrStraps s).pending = s.pending ∧
    (releaseReset sizeStraps addrStraps s).link.enables = s.link.enables ∧
    (releaseReset sizeStraps addrStraps s).link.response = s.link.response := by
  unfold releaseReset
  try dsimp only
  repeat' split
  all_goals simp

@[simp] theorem warningAsserted_frame (s : State) :
    (warningAsserted s).time = s.time ∧ (warningAsserted s).health = s.health ∧
    (warningAsserted s).pending = s.pending ∧ (warningAsserted s).link.enables = s.link.enables ∧
    (warningAsserted s).link.response = s.link.response := by
  unfold warningAsserted
  try dsimp only
  repeat' split
  all_goals simp

@[simp] theorem assertHoldUp_frame (s : State) :
    (assertHoldUp s).time = s.time ∧ (assertHoldUp s).health = s.health ∧ (assertHoldUp s).pending = s.pending ∧
    (assertHoldUp s).link.enables = s.link.enables ∧ (assertHoldUp s).link.response = s.link.response := by
  unfold assertHoldUp
  try dsimp only
  repeat' split
  all_goals simp

@[simp] theorem deassertHoldUp_frame (s : State) :
    (deassertHoldUp s).time = s.time ∧ (deassertHoldUp s).host = s.host ∧ (deassertHoldUp s).buf = s.buf ∧
    (deassertHoldUp s).mig = s.mig ∧ (deassertHoldUp s).health = s.health ∧ (deassertHoldUp s).out = s.out ∧
    (deassertHoldUp s).pending = s.pending ∧ (deassertHoldUp s).link.enables = s.link.enables ∧
    (deassertHoldUp s).link.response = s.link.response := by
  unfold deassertHoldUp
  try dsimp only
  repeat' split
  all_goals simp

/-! ### MediumCommands -/

@[simp] theorem hostReadOutcome_frame (op : InFlight) (o : ReadOutcome LineData) (s : State) :
    (hostReadOutcome op o s).unit = s.unit ∧ (hostReadOutcome op o s).time = s.time ∧
    (hostReadOutcome op o s).buf = s.buf ∧ (hostReadOutcome op o s).jrn = s.jrn ∧
    (hostReadOutcome op o s).pending = s.pending ∧ (hostReadOutcome op o s).link.enables = s.link.enables ∧
    (hostReadOutcome op o s).link.response = s.link.response := by
  unfold hostReadOutcome
  try dsimp only
  repeat' split
  all_goals simp

@[simp] theorem engineRead_frame (o : ReadOutcome LineData) (s : State) :
    (engineRead o s).unit = s.unit ∧ (engineRead o s).time = s.time ∧ (engineRead o s).host = s.host ∧
    (engineRead o s).buf = s.buf ∧ (engineRead o s).out = s.out ∧ (engineRead o s).pending = s.pending ∧
    (engineRead o s).link.enables = s.link.enables ∧ (engineRead o s).link.response = s.link.response := by
  unfold engineRead
  try dsimp only
  repeat' split
  all_goals simp

@[simp] theorem engineWrite_frame (report : WriteReport) (s : State) :
    (engineWrite report s).time = s.time ∧ (engineWrite report s).pending = s.pending ∧
    (engineWrite report s).link.enables = s.link.enables ∧ (engineWrite report s).link.response = s.link.response := by
  unfold engineWrite
  try dsimp only
  repeat' split
  all_goals simp

@[simp] theorem formatReadArrives_frame (id : AttemptId) (stored : Stored) (s : State) :
    (formatReadArrives id stored s).time = s.time ∧ (formatReadArrives id stored s).host = s.host ∧
    (formatReadArrives id stored s).buf = s.buf ∧ (formatReadArrives id stored s).jrn = s.jrn ∧
    (formatReadArrives id stored s).out = s.out ∧ (formatReadArrives id stored s).pending = s.pending ∧
    (formatReadArrives id stored s).link.enables = s.link.enables ∧
    (formatReadArrives id stored s).link.response = s.link.response := by
  unfold formatReadArrives
  try dsimp only
  repeat' split
  all_goals simp

@[simp] theorem formatWriteArrives_frame (id : AttemptId) (report : WriteReport) (s : State) :
    (formatWriteArrives id report s).buf = s.buf ∧ (formatWriteArrives id report s).mig = s.mig ∧
    (formatWriteArrives id report s).pending = s.pending ∧
    (formatWriteArrives id report s).link.enables = s.link.enables ∧
    (formatWriteArrives id report s).link.response = s.link.response := by
  unfold formatWriteArrives
  try dsimp only
  repeat' split
  all_goals simp

/-! ### LinkCommands -/

@[simp] theorem setVolatileFence_frame (tag : Byte) (v : Nat) (s : State) :
    (setVolatileFence tag v s).unit = s.unit ∧ (setVolatileFence tag v s).time = s.time ∧
    (setVolatileFence tag v s).host = s.host ∧ (setVolatileFence tag v s).buf = s.buf ∧
    (setVolatileFence tag v s).mig = s.mig ∧ (setVolatileFence tag v s).media = s.media ∧
    (setVolatileFence tag v s).jrn = s.jrn ∧ (setVolatileFence tag v s).health = s.health ∧
    (setVolatileFence tag v s).out = s.out ∧ (setVolatileFence tag v s).pending = s.pending ∧
    (setVolatileFence tag v s).link.enables = s.link.enables := by
  unfold setVolatileFence
  try dsimp only
  all_goals simp

@[simp] theorem setPersistentFence_frame (tag : Byte) (v : Nat) (s : State) :
    (setPersistentFence tag v s).unit = s.unit ∧ (setPersistentFence tag v s).time = s.time ∧
    (setPersistentFence tag v s).host = s.host ∧ (setPersistentFence tag v s).buf = s.buf ∧
    (setPersistentFence tag v s).mig = s.mig ∧ (setPersistentFence tag v s).media = s.media ∧
    (setPersistentFence tag v s).health = s.health ∧ (setPersistentFence tag v s).out = s.out ∧
    (setPersistentFence tag v s).pending = s.pending ∧ (setPersistentFence tag v s).link.enables = s.link.enables := by
  unfold setPersistentFence
  try dsimp only
  repeat' split
  all_goals simp


@[simp] theorem requestMigration_frame (tag : Byte) (logical : Nat) (s : State) :
    (requestMigration tag logical s).unit = s.unit ∧ (requestMigration tag logical s).time = s.time ∧
    (requestMigration tag logical s).host = s.host ∧ (requestMigration tag logical s).buf = s.buf ∧
    (requestMigration tag logical s).map = s.map ∧ (requestMigration tag logical s).media = s.media ∧
    (requestMigration tag logical s).jrn = s.jrn ∧ (requestMigration tag logical s).health = s.health ∧
    (requestMigration tag logical s).out = s.out ∧ (requestMigration tag logical s).pending = s.pending ∧
    (requestMigration tag logical s).link.enables = s.link.enables := by
  unfold requestMigration
  try dsimp only
  repeat' split
  all_goals simp

@[simp] theorem restartNow_frame (tag : Byte) (s : State) :
    (restartNow tag s).pending = s.pending := by
  unfold restartNow
  try dsimp only
  repeat' split
  all_goals simp

@[simp] theorem formatNow_frame (tag : Byte) (spares retireWear : Nat) (s : State) :
    (formatNow tag spares retireWear s).time = s.time ∧ (formatNow tag spares retireWear s).host = s.host ∧
    (formatNow tag spares retireWear s).out = s.out ∧ (formatNow tag spares retireWear s).pending = s.pending ∧
    (formatNow tag spares retireWear s).link.enables = s.link.enables := by
  unfold formatNow
  try dsimp only
  repeat' split
  all_goals simp

end Sys2Proof.Machine
end

