-- ==== Sys2Proof/Laws/Settle.lean ====
section
/-! SUPPORT. What the rest of a happening can do: the follow-up events one by one, induction over them, quiet states. -/

namespace Sys2Proof.Machine

/-- A follow-up event that was made is one of the sixteen. -/
theorem nextFollowUp_cases {s t : State} (h : nextFollowUp s = some t) :
    abortComplete? s = some t ∨ migrationSwitch? s = some t ∨ creatorJoin? s = some t ∨ flushDone? s = some t ∨
    persistDone? s = some t ∨ waitQueueTake? s = some t ∨ persistTake? s = some t ∨ migrationTake? s = some t ∨
    quiesceEnd? s = some t ∨ lateCopyStart? s = some t ∨ drainLockEmptyingEnd? s = some t ∨
    closingEmptyingEnd? s = some t ∨ closingCheckpointStart? s = some t ∨ imageFix? s = some t ∨
    recordIssue? s = some t ∨ drainIssue? s = some t := by
  obtain ⟨e, he, h⟩ := List.exists_of_findSome?_eq_some h
  fin_cases he <;> simp_all

/-- What every follow-up event keeps, a run of follow-up events keeps. -/
theorem followUpTo_induct (I : State → Prop) (step : ∀ s t, I s → nextFollowUp s = some t → I t) (n : Nat) (s : State)
    (h : I s) : I (followUpTo n s) := by
  induction n generalizing s with
  | zero => exact h
  | succ n ih =>
    unfold followUpTo
    split
    · exact ih _ (step _ _ h ‹_›)
    · exact h

/-- What every follow-up event and the grants keep, the rest of a happening keeps. -/
theorem settle_induct (I : State → Prop) (step : ∀ s t, I s → nextFollowUp s = some t → I t)
    (grant : ∀ s, I s → I (grantAll s)) (s : State) (h : I s) : I (settle s) :=
  grant _ (followUpTo_induct I step _ _ h)

/-- A follow-up event changes neither the time base, nor the settings, nor the queue of commands, nor the pending
response, nor the event enables. -/
theorem nextFollowUp_frame {s t : State} (h : nextFollowUp s = some t) :
    t.time = s.time ∧ t.pending = s.pending ∧ t.link.enables = s.link.enables ∧ t.link.response = s.link.response := by
  rcases nextFollowUp_cases h with h | h | h | h | h | h | h | h | h | h | h | h | h | h | h | h
  · simp [abortComplete?_frame s h]
  · simp [migrationSwitch?_frame s h]
  · simp [creatorJoin?_frame s h]
  · simp [flushDone?_frame s h]
  · simp [persistDone?_frame s h]
  · simp [waitQueueTake?_frame s h]
  · simp [persistTake?_frame s h]
  · simp [migrationTake?_frame s h]
  · simp [quiesceEnd?_frame s h]
  · simp [lateCopyStart?_frame s h]
  · simp [drainLockEmptyingEnd?_frame s h]
  · simp [closingEmptyingEnd?_frame s h]
  · simp [closingCheckpointStart?_frame s h]
  · simp [imageFix?_frame s h]
  · simp [recordIssue?_frame s h]
  · simp [drainIssue?_frame s h]

/-- The rest of a happening changes neither the time base, nor the queue of commands, nor the pending response, nor the
event enables. -/
theorem settle_frame (s : State) :
    (settle s).time = s.time ∧ (settle s).pending = s.pending ∧ (settle s).link.enables = s.link.enables ∧
    (settle s).link.response = s.link.response :=
  settle_induct
    (fun t => t.time = s.time ∧ t.pending = s.pending ∧ t.link.enables = s.link.enables ∧
      t.link.response = s.link.response)
    (fun u t hu ht => by
      have := nextFollowUp_frame ht
      simp_all)
    (fun u hu => by simpa using hu) s ⟨rfl, rfl, rfl, rfl⟩

/-- No follow-up event is enabled in a quiet state. -/
theorem followUpTo_of_none {s : State} (h : nextFollowUp s = none) (n : Nat) : followUpTo n s = s := by
  cases n with
  | zero => rfl
  | succ n => simp [followUpTo, h]

/-- With no request arriving, none joins. -/
theorem joinWaiting_of_empty {s : State} (h : s.media.arriving = []) : joinWaiting s = s := by
  obtain ⟨unit, time, host, buf, map, mig, media, jrn, health, link, out, pending⟩ := s
  obtain ⟨w, a, i, g, p, q, e⟩ := media
  simp only at h
  subst h
  simp [joinWaiting, State.setMedia, inArrivalOrder, classesHighestFirst, hostReadOrder]

/-- Grants end where none can be made. -/
theorem grantUpTo_of_none {s : State} (h : grantOne s = none) (n : Nat) : grantUpTo n s = s := by
  cases n with
  | zero => rfl
  | succ n => simp [grantUpTo, h]

/-- Nothing follows in a quiet state. -/
theorem settle_of_quiet {s : State} (h : s.quiet = true) : settle s = s := by
  simp only [State.quiet, Bool.and_eq_true, Option.isNone_iff_eq_none, List.isEmpty_iff] at h
  obtain ⟨⟨h1, h2⟩, h3⟩ := h
  simp [settle, followUpTo_of_none h1, grantAll, joinWaiting_of_empty h2, grantUpTo_of_none h3]

/-- A command whose own effect leaves a quiet state ends there. -/
theorem happening_of_quiet {body : State → State} {s : State} (h : (body (beginHappening s)).quiet = true) :
    happening body s = body (beginHappening s) := settle_of_quiet h

/-- One follow-up event, and then the grants. -/
theorem settle_of_one {s t : State} (h : nextFollowUp s = some t) (ht : nextFollowUp t = none) :
    settle s = grantAll t := by
  have run : ∀ n, followUpTo (n + 1) s = t := fun n => by simp [followUpTo, h, followUpTo_of_none ht]
  exact congrArg grantAll (run 511)

/-- A follow-up event commanded by name, whose conditions hold, is made. -/
theorem perform_of_some {e : State → Option State} {s t : State} (h : e s = some t) : perform e s = t := by
  simp [perform, h]

end Sys2Proof.Machine
end

