-- ==== Sys2Proof/Laws/Enabled.lean ====
section
/-! SUPPORT. When each follow-up event is enabled, as a test of the blocks it reads; none reads the outputs, the queue of commands, the link or the health counters. -/

namespace Sys2Proof.Machine

variable (s : State)

theorem abortComplete?_isNone : (abortComplete? s).isNone =
    (match s.mig.current with
    | some m => !(s.working && m.phase ≠ .commitWait && m.abortPending && !s.engineInFlight)
    | none => true) := by
  unfold abortComplete?
  grind

theorem migrationSwitch?_isNone : (migrationSwitch? s).isNone =
    (match s.mig.current with
    | some m =>
      !(s.working && m.phase = .commitWait && m.commitDurable && m.lateMask = 0#64 && !(s.frameDraining m.logical))
    | none => true) := by
  unfold migrationSwitch?
  cases s.mig.current with
  | none => rfl
  | some m =>
    generalize hl : (decide (m.lateMask = 0#64)) = l
    have : (m.lateMask = 0#64) = (l = true) := by simp [← hl]
    simp only [this]
    by_cases h : s.working = true ∧ m.phase = MigPhase.commitWait ∧ m.commitDurable = true ∧ l = true ∧
      ¬s.frameDraining m.logical = true
    · obtain ⟨h1, h2, h3, h4, h5⟩ := h
      simp [*]
    · simp only [not_and, not_not] at h
      by_cases h1 : s.working = true <;> by_cases h2 : m.phase = MigPhase.commitWait <;>
        by_cases h3 : m.commitDurable = true <;> by_cases h4 : l = true <;> simp_all

theorem creatorJoin?_isNone : (creatorJoin? s).isNone =
    !(s.stagingRoom && s.unit.state ≠ .failed && !s.jrn.waiters.isEmpty) := by
  unfold creatorJoin?
  grind

theorem flushDone?_isNone : (flushDone? s).isNone =
    (s.unit.state = .failed || (match s.buf.flush with
    | some b => !s.satisfied b
    | none => true)) := by
  unfold flushDone?
  grind

theorem persistDone?_isNone : (persistDone? s).isNone =
    (s.unit.state = .failed || (match s.host.persists with
    | p :: _ => !s.satisfied p.barrier
    | [] => true)) := by
  unfold persistDone?
  grind

theorem waitQueueTake?_isNone : (waitQueueTake? s).isNone =
    !(s.unit.state = .online && s.nextWaiting.isSome) := by
  unfold waitQueueTake?
  grind

theorem persistTake?_isNone : (persistTake? s).isNone =
    (s.notReady || s.unit.state = .reset ||
    (match s.host.entries.find? fun e => e.standing = .persistWaiting with
    | some e => !(s.persistRoom && !((entriesBefore e.tag s.host.entries).any TagEntry.waitingWrite))
    | none => true)) := by
  unfold persistTake?
  grind

theorem migrationTake?_isNone : (migrationTake? s).isNone =
    !(s.running && s.mig.current.isNone && s.mig.takeHead.isSome) := by
  unfold migrationTake?
  grind

theorem quiesceEnd?_isNone : (quiesceEnd? s).isNone =
    (match s.mig.current with
    | some m => !(s.engineRuns && m.phase = .quiesce && !m.abortPending && !(s.frameDraining m.logical))
    | none => true) := by
  unfold quiesceEnd?
  grind

theorem lateCopyStart?_isNone : (lateCopyStart? s).isNone =
    (match s.mig.current with
    | some m => !(s.working && m.phase = .commitWait && !(s.frameDraining m.logical) && m.nextLate.isSome)
    | none => true) := by
  unfold lateCopyStart?
  grind

theorem drainLockEmptyingEnd?_isNone : (drainLockEmptyingEnd? s).isNone =
    !(s.unit.state = .drainLock && s.unit.stage = some .emptying && s.emptied) := by
  unfold drainLockEmptyingEnd?
  grind

theorem closingEmptyingEnd?_isNone : (closingEmptyingEnd? s).isNone =
    !(s.unit.state = .closing && s.unit.stage = some .emptying && s.emptied) := by
  unfold closingEmptyingEnd?
  grind

theorem closingCheckpointStart?_isNone : (closingCheckpointStart? s).isNone =
    !(s.unit.state = .closing && s.unit.stage = some .checkpoint && s.jrn.checkpoint.isNone) := by
  unfold closingCheckpointStart?
  grind

theorem imageFix?_isNone : (imageFix? s).isNone =
    (match s.jrn.checkpoint with
    | some c => !(c.phase = .starting && !s.jrn.writing)
    | none => true) := by
  unfold imageFix?
  grind

theorem recordIssue?_isNone : (recordIssue? s).isNone =
    !(s.mayIssueRecord && !s.jrn.staging.isEmpty) := by
  unfold recordIssue?
  grind

theorem drainIssue?_isNone : (drainIssue? s).isNone =
    !(s.working && (freeDrainPlace s.buf).isSome && s.nextToDrain.isSome) := by
  unfold drainIssue?
  cases freeDrainPlace s.buf <;> cases s.nextToDrain <;> cases s.working <;> rfl

theorem grantOne_isNone : (grantOne s).isNone =
    !(s.unit.state ≠ .reset && s.unit.state ≠ .failed && (freeMediaPlace s.media).isSome &&
    (chooseRequest s.media).isSome) := by
  unfold grantOne
  cases freeMediaPlace s.media <;> cases chooseRequest s.media <;> simp
  split <;> simp_all

/-- A state with its outputs, its queue of commands, its link and its health counters replaced. -/
def State.dressed (s : State) (o : Outputs) (q : List Instr) (l : ManagementLink) (h : HealthMonitor) : State :=
  { s with out := o, pending := q, link := l, health := h }

/-- The same follow-up events are enabled in a state and in its dressed forms. -/
theorem nextFollowUp_dressed (o : Outputs) (q : List Instr) (l : ManagementLink) (h : HealthMonitor) :
    nextFollowUp (s.dressed o q l h) = none ↔ nextFollowUp s = none := by
  have key : ∀ e ∈ followUps, (e (s.dressed o q l h)).isNone = (e s).isNone := by
    intro e he
    fin_cases he
    · exact (abortComplete?_isNone _).trans (abortComplete?_isNone s).symm
    · exact (migrationSwitch?_isNone _).trans (migrationSwitch?_isNone s).symm
    · exact (creatorJoin?_isNone _).trans (creatorJoin?_isNone s).symm
    · exact (flushDone?_isNone _).trans (flushDone?_isNone s).symm
    · exact (persistDone?_isNone _).trans (persistDone?_isNone s).symm
    · exact (waitQueueTake?_isNone _).trans (waitQueueTake?_isNone s).symm
    · exact (persistTake?_isNone _).trans (persistTake?_isNone s).symm
    · exact (migrationTake?_isNone _).trans (migrationTake?_isNone s).symm
    · exact (quiesceEnd?_isNone _).trans (quiesceEnd?_isNone s).symm
    · exact (lateCopyStart?_isNone _).trans (lateCopyStart?_isNone s).symm
    · exact (drainLockEmptyingEnd?_isNone _).trans (drainLockEmptyingEnd?_isNone s).symm
    · exact (closingEmptyingEnd?_isNone _).trans (closingEmptyingEnd?_isNone s).symm
    · exact (closingCheckpointStart?_isNone _).trans (closingCheckpointStart?_isNone s).symm
    · exact (imageFix?_isNone _).trans (imageFix?_isNone s).symm
    · exact (recordIssue?_isNone _).trans (recordIssue?_isNone s).symm
    · exact (drainIssue?_isNone _).trans (drainIssue?_isNone s).symm
  simp only [nextFollowUp, List.findSome?_eq_none_iff]
  refine forall₂_congr fun e he => ?_
  simpa using congrArg (· = true) (key e he)

/-- A state is quiet exactly when its dressed forms are. -/
theorem quiet_dressed (o : Outputs) (q : List Instr) (l : ManagementLink) (h : HealthMonitor) :
    (s.dressed o q l h).quiet = s.quiet := by
  have a : (nextFollowUp (s.dressed o q l h)).isNone = (nextFollowUp s).isNone := by
    rw [Bool.eq_iff_iff]
    simpa using nextFollowUp_dressed s o q l h
  have b : (grantOne (s.dressed o q l h)).isNone = (grantOne s).isNone :=
    (grantOne_isNone _).trans (grantOne_isNone s).symm
  unfold State.quiet
  rw [a, b]
  rfl

end Sys2Proof.Machine
end

