-- ==== Sys2Proof/Laws/Ops.lean ====
section
/-! SUPPORT. For every shared operation, what it does, said once: one equation where it does one thing, its cases where it does several. Laws/Frames.lean says what each leaves alone. -/

namespace Sys2Proof.Machine

/-! ### Flags and outputs -/

/-- After an event is raised its flag stands, and every other flag is as it was. -/
theorem raise_raised (e f : Event) (s : State) : (raise e s).raised f = (s.raised f || decide (f = e)) := by
  cases e <;> cases f <;> simp [raise, State.raised, State.setLink, Event.flag, Event.bit]

theorem enterState_unit (st : UnitState) (s : State) : (enterState st s).unit = { s.unit with state := st } := rfl

theorem enterState_raised (st : UnitState) (s : State) : (enterState st s).raised .stateChanged = true := by
  simp [enterState, raise_raised]

theorem sendHost_out (tag : BitVec 5) (code : HostCode) (data : LineData) (s : State) :
    (sendHost tag code data s).out.host = s.out.host ++ [⟨tag, code, if code = .data then data else zeroLine⟩] := rfl

theorem sendAttempt_out (op : InFlight) (s : State) :
    (sendAttempt op s).out.media = s.out.media ++ [⟨op.id, op.request.kind, op.request.physical⟩] := rfl

theorem respond_response (tag : Byte) (status : Status) (results : List Byte) (s : State) :
    (respond tag status results s).link.response = some ⟨status, tag, if status = .ok then results else []⟩ := rfl

theorem respond_flags (tag : Byte) (status : Status) (results : List Byte) (s : State) :
    (respond tag status results s).link.flags = s.link.flags := rfl

/-- The five outcomes of judging a request (R183). -/
theorem judge_cases (tag : Byte) (params : List Byte) (len : Nat) (permitted argsOk : State → Bool)
    (run : State → State) (s : State) :
    (s.unit.state = .reset ∧ judge tag params len permitted argsOk run s = s) ∨
    (params.length ≠ len ∧ judge tag params len permitted argsOk run s = respond tag .badArg [] s) ∨
    (params.length = len ∧ permitted s = false ∧
      judge tag params len permitted argsOk run s = respond tag .badState [] s) ∨
    (params.length = len ∧ permitted s = true ∧ argsOk s = false ∧
      judge tag params len permitted argsOk run s = respond tag .badArg [] s) ∨
    (params.length = len ∧ permitted s = true ∧ argsOk s = true ∧
      judge tag params len permitted argsOk run s = run s) := by
  unfold judge
  split
  · exact .inl ⟨‹_›, rfl⟩
  split
  · exact .inr (.inl ⟨‹_›, rfl⟩)
  split
  · exact .inr (.inr (.inl ⟨by simp_all, by simp_all, rfl⟩))
  split
  · exact .inr (.inr (.inr (.inl ⟨by simp_all, by simp_all, by simp_all, rfl⟩)))
  · exact .inr (.inr (.inr (.inr ⟨by simp_all, by simp_all, by simp_all, rfl⟩)))

/-! ### Tables -/

theorem updEntry_entry? (l k : Nat) (f : MapEntry → MapEntry) (s : State) :
    (updEntry l f s).entry? k = if k = l then (s.entry? k).map f else s.entry? k := by
  simp [updEntry, State.entry?, State.setMap, List.getElem?_modify, eq_comm]
  split <;> simp_all

theorem updFrame_frame? (p k : Nat) (f : FrameRecord → FrameRecord) (s : State) :
    (updFrame p f s).frame? k = if k = p then (s.frame? k).map f else s.frame? k := by
  simp [updFrame, State.frame?, State.setMap, List.getElem?_modify, eq_comm]
  split <;> simp_all

theorem updMig_current (f : Migration → Migration) (s : State) : (updMig f s).mig.current = s.mig.current.map f := rfl

/-- The poison flag of a line takes the value (R8), in the entry and, in COMMIT_WAIT, in the pending mask (R101). -/
theorem setPoison_spec (line : Nat) (v : Bool) (s : State) :
    (setPoison line v s).map = (updEntry (frameOf line) (fun e => { e with poison := putFlag e.poison (indexOf line) v }) s).map ∧
    (setPoison line v s).mig =
      if s.commitWaitOf (frameOf line) = true then
        (updMig (fun m => { m with pendingPoison := putFlag m.pendingPoison (indexOf line) v }) s).mig
      else s.mig := by
  unfold setPoison
  constructor <;> dsimp only <;> split <;> simp_all [updMig, updEntry]

theorem setMigrationMark_entry? (l : Nat) (v : Bool) (s : State) :
    (setMigrationMark l v s).entry? l = (s.entry? l).map fun e => { e with migrationMark := v } := by
  simp [setMigrationMark, updEntry_entry?]

theorem setFailMark_entry? (l : Nat) (v : Bool) (s : State) :
    (setFailMark l v s).entry? l = (s.entry? l).map fun e => { e with failMark := v } := by
  simp [setFailMark, updEntry_entry?]

theorem retireFrame_frame? (f : Nat) (s : State) :
    (retireFrame f s).frame? f = (s.frame? f).map fun r => { r with role := .retired, owner := none } := by
  simp [retireFrame, updFrame_frame?]

theorem takeTarget_spec (f : Nat) (rest : List Nat) (l : Nat) (s : State) :
    (takeTarget f rest l s).map.pool = rest ∧
    (takeTarget f rest l s).frame? f = (s.frame? f).map fun r => { r with role := .target, owner := some l } := by
  constructor
  · rfl
  · unfold takeTarget
    rw [updFrame_frame?]
    simp [State.frame?, State.setMap]

theorem loadTables_map (t : Tables) (s : State) :
    (loadTables t s).map = ⟨true, t.entries, t.frames, buildPool t.frames, t.fence, none, overdueMapped t.frames, t.unclean⟩ :=
  rfl

/-- A raise of wear is a raise of one frame's wear. -/
theorem raiseWear_map (f : Nat) (s : State) : (raiseWear f s).map = s.worn f := rfl

/-! ### Media Port -/

/-- A request is handed over, but in FAILED and RESET (R63, R78). -/
theorem request_cases (r : MediaRequest) (s : State) :
    (s.unit.state = .failed ∨ s.unit.state = .reset) ∧ request r s = s ∨
    (s.unit.state ≠ .failed ∧ s.unit.state ≠ .reset) ∧
      request r s = s.setMedia { s.media with arriving := s.media.arriving ++ [r] } := by
  unfold request
  split
  · exact .inl ⟨by simp_all, rfl⟩
  · exact .inr ⟨by simp_all, rfl⟩

theorem freePlaceOf_media (id : AttemptId) (s : State) :
    (freePlaceOf id s).media.inflight = s.media.inflight.filter fun op => op.id ≠ id := rfl

theorem recordError_media (op : InFlight) (event : MediaEvent) (bits : Nat) (s : State) :
    (recordError op event bits s).media = { s.media with lastError := s.errorRecord op event bits } := rfl

/-- What a read's outcome does before its requester sees it, by its kind (R67, R72 to R74). -/
theorem readOutcome_clean {α : Type} (op : InFlight) (d : α) (s : State) :
    readOutcome op (.clean d) s = s.setMedia (s.freed op) := rfl

theorem readOutcome_uncorrectable {α : Type} (op : InFlight) (s : State) :
    readOutcome op (.uncorrectable : ReadOutcome α) s =
      { s with
        health := { s.health with uncorrectableReads := satRaise max32 s.health.uncorrectableReads }
        media := { s.freed op with lastError := s.errorRecord op .uncorrectable 0 } } := rfl

/-- A write's outcome raises the frame's wear and frees the place; a program fail is counted and recorded (R72 to R74). -/
theorem writeOutcome_stored (op : InFlight) (s : State) :
    writeOutcome op .stored s = { s with map := s.worn (op.request.physical / 64), media := s.freed op } := rfl

theorem writeOutcome_programFail (op : InFlight) (s : State) :
    writeOutcome op .programFail s =
      { s with
        map := s.worn (op.request.physical / 64)
        health := { s.health with programFails := satRaise max32 s.health.programFails }
        media := { s.freed op with lastError := s.errorRecord op .programFail 0 } } := rfl

/-- The two things a grant attempt can do (R67). -/
theorem grantOne_cases (s : State) :
    grantOne s = none ∨
    ∃ p r, freeMediaPlace s.media = some p ∧ chooseRequest s.media = some r ∧ s.unit.state ≠ .reset ∧
      s.unit.state ≠ .failed ∧
      grantOne s = some (sendAttempt (grantIn r p s.time.tick s.time.active.mediaTimeout s.media).2
        (s.setMedia (grantIn r p s.time.tick s.time.active.mediaTimeout s.media).1)) := by
  unfold grantOne
  split
  · exact .inl rfl
  · split
    · rename_i h _ _ p r hp hr
      simp only [Bool.or_eq_true, decide_eq_true_eq, not_or] at h
      exact .inr ⟨p, r, hp, hr, h.1, h.2, rfl⟩
    · exact .inl rfl

/-- Host reads begun together stand in the arrival order of their host requests (R66). -/
theorem hostReadOrder_spec (entries : List TagEntry) (rs : List MediaRequest) :
    (hostReadOrder entries rs).Perm rs ∧
    (hostReadOrder entries rs).Pairwise fun a b => hostRank entries a ≤ hostRank entries b := by
  have perm : ∀ r l, (insertHostRead entries r l).Perm (r :: l) := by
    intro r l
    induction l with
    | nil => exact List.Perm.refl _
    | cons x l ih =>
      unfold insertHostRead
      split
      · exact List.Perm.refl _
      · exact (ih.cons x).trans (List.Perm.swap r x l)
  induction rs with
  | nil => exact ⟨List.Perm.refl _, List.Pairwise.nil⟩
  | cons r rs ih =>
    change (insertHostRead entries r (hostReadOrder entries rs)).Perm (r :: rs) ∧ _
    refine ⟨(perm _ _).trans (ih.1.cons r), ?_⟩
    change (insertHostRead entries r (hostReadOrder entries rs)).Pairwise _
    have ho := ih.2
    generalize hostReadOrder entries rs = l at ho
    induction l with
    | nil => exact List.pairwise_singleton _ _
    | cons x l ihl =>
      rw [List.pairwise_cons] at ho
      unfold insertHostRead
      split
      · rename_i hle
        exact List.pairwise_cons.mpr ⟨fun y hy => by
          rcases List.mem_cons.mp hy with rfl | hy
          · exact hle
          · exact le_trans hle (ho.1 y hy), List.pairwise_cons.mpr ho⟩
      · rename_i hle
        refine List.pairwise_cons.mpr ⟨fun y hy => ?_, ihl ho.2⟩
        rcases List.mem_cons.mp ((perm r l).mem_iff.mp hy) with rfl | hy
        · omega
        · exact ho.1 y hy

/-- A metadata line that the part writes is read back as it was (R2, R120, R131, R132). -/
theorem metaFormat_read_layout {m : MetaLine} (h : m.written = true) :
    Config.metaFormat.read (Config.metaFormat.layout m) = m := Config.metaFormat.read_layout m h

/-! ### Buffer -/

theorem takeSlot_slots (line : Nat) (mask : Flags64) (data : LineData) (seq : Word32) (s : State) :
    (takeSlot line mask data seq s).buf.slots = s.buf.slots ++ [newSlot line mask data s.time.tick seq] := rfl

theorem freeSlot_slots (line : Nat) (s : State) :
    (freeSlot line s).buf.slots = s.buf.slots.filter fun sl => sl.line ≠ line := rfl

/-- Pressure mode after a slot is freed is judged on the slots that are left (R30). -/
theorem freeSlot_pressure (line : Nat) (s : State) :
    (freeSlot line s).buf.pressure =
      pressureAfter s.time.active.highWater s.time.active.lowWater
        (s.buf.slots.filter fun sl => sl.line ≠ line).length s.buf.pressure := rfl

/-- A drained slot becomes FREE, or DIRTY by its re-dirty mark (R36, R39). -/
theorem finishSlot_cases (line : Nat) (s : State) :
    (s.slot? line = none ∧ finishSlot line s = s) ∨
    (∃ sl, s.slot? line = some sl ∧ sl.redirty = none ∧ finishSlot line s = freeSlot line s) ∨
    (∃ sl mark, s.slot? line = some sl ∧ sl.redirty = some mark ∧
      finishSlot line s = updSlot line (redirtied mark) s) := by
  unfold finishSlot
  split
  · rename_i sl hs
    split
    · exact .inr (.inr ⟨sl, _, hs, ‹_›, rfl⟩)
    · exact .inr (.inl ⟨sl, hs, ‹_›, rfl⟩)
  · exact .inl ⟨‹_›, rfl⟩

/-! ### Host Port -/

theorem answer_spec (tag : BitVec 5) (code : HostCode) (data : LineData) (s : State) :
    (answer tag code data s).host.entries = s.host.entries.filter (fun e => e.tag ≠ tag) ∧
    (answer tag code data s).out.host = s.out.host ++ [⟨tag, code, if code = .data then data else zeroLine⟩] :=
  ⟨rfl, rfl⟩

/-- A write that is taken is answered DONE, or its answer is held (R50). -/
theorem finishWrite_cases (tag : BitVec 5) (line : Nat) (s : State) :
    (s.earlierRead tag line = false ∧ finishWrite tag line s = answer tag .done zeroLine s) ∨
    (s.earlierRead tag line = true ∧ finishWrite tag line s = s.setHost { s.host with
      entries := s.host.entries.map fun e =>
        if e.tag = tag then { e with standing := .answerHeld, data := zeroLine } else e }) := by
  unfold finishWrite
  split
  · exact .inr ⟨‹_›, rfl⟩
  · exact .inl ⟨by simp_all, rfl⟩

/-- A PERSIST that is taken is answered, or joins the pending list under its barrier (R59). -/
theorem takePersist_cases (tag : BitVec 5) (s : State) :
    (s.satisfied s.host.acceptSeq = true ∧ takePersist tag s = answer tag .done zeroLine s) ∨
    (s.satisfied s.host.acceptSeq = false ∧
      (takePersist tag s).host.persists = s.host.persists ++ [⟨tag, s.host.acceptSeq⟩] ∧
      (takePersist tag s).host.entries = (setStanding tag .persistPending s).host.entries) := by
  unfold takePersist
  dsimp only
  split
  · exact .inl ⟨‹_›, rfl⟩
  · exact .inr ⟨by simp_all, rfl, rfl⟩

/-! ### Journal -/

theorem stageRecord_staging (c : Creator) (r : JournalRecord) (s : State) :
    (stageRecord c r s).jrn.staging = s.jrn.staging ++ [⟨c, r, none⟩] := rfl

/-- A record handed over joins the queue, joins the records its creator keeps, or makes its creator wait, which is a
stall when none waited before (R121, R122). -/
theorem handOver_cases (c : Creator) (r : JournalRecord) (s : State) :
    (s.joinsAtOnce = true ∧ handOver c r s = stageRecord c r s) ∨
    (s.joinsAtOnce = false ∧ s.creatorWaits c = true ∧ handOver c r s = s.setJrn { s.jrn with
      waiters := s.jrn.waiters.map fun w => if w.creator = c then { w with records := w.records ++ [r] } else w }) ∨
    (s.joinsAtOnce = false ∧ s.creatorWaits c = false ∧
      (handOver c r s).jrn = { s.jrn with waiters := s.jrn.waiters ++ [⟨c, [r]⟩] } ∧
      (s.jrn.waiters = [] → (handOver c r s).raised .journalStall = true)) := by
  unfold handOver waitWith
  split
  · exact .inl ⟨‹_›, rfl⟩
  · split
    · exact .inr (.inl ⟨by simp_all, ‹_›, rfl⟩)
    · refine .inr (.inr ⟨by simp_all, by simp_all, ?_, ?_⟩)
      · dsimp only
        split <;> rfl
      · intro h
        simp [h, raise_raised]

theorem startCheckpoint_phase (clean : Bool) (s : State) :
    ∃ c, (startCheckpoint clean s).jrn.checkpoint = some c ∧ c.phase = .starting ∧ c.clean = clean ∧
      c.area = (s.jrn.descriptor.map fun d => d.area.other).getD .a ∧
      c.seq = (s.jrn.descriptor.map fun d => d.seq + 1).getD 1#32 := ⟨_, rfl, rfl, rfl, rfl, rfl⟩

/-- A trigger starts a checkpoint, unless one is in progress (R128). -/
theorem triggerCheckpoint_cases (s : State) :
    (s.jrn.checkpoint = none ∧ triggerCheckpoint s = startCheckpoint false s) ∨
    (s.jrn.checkpoint ≠ none ∧ triggerCheckpoint s = s) := by
  unfold triggerCheckpoint
  split
  · exact .inl ⟨by simp_all, rfl⟩
  · exact .inr ⟨by simp_all, rfl⟩

/-! ### Late copies (R101, log entry 13) -/

/-- The next late line is late, its flag waits for no record alone, and no lower line is so; none while a copy is in progress. -/
theorem nextLate_spec (m : Migration) (i : Nat) (h : m.nextLate = some i) :
    m.lateCopy = none ∧ m.lateMask.getLsbD i = true ∧ m.lateSettled.getLsbD i = false ∧
    ∀ j, j < i → m.lateMask.getLsbD j = true → m.lateSettled.getLsbD j = true := by
  unfold Migration.nextLate at h
  split at h
  · rename_i hc
    have hf := List.find?_eq_some_iff_getElem.mp h
    obtain ⟨hp, k, hk, hki, hlt⟩ := hf
    simp only [List.getElem_range] at hki
    subst hki
    have h64 : k < 64 := by simpa using hk
    simp only [BitVec.getLsbD_and, BitVec.getLsbD_not, Bool.and_eq_true, Bool.not_eq_true', h64, decide_true] at hp
    refine ⟨by simpa using hc, hp.1, by simpa using hp.2, fun j hj hm => ?_⟩
    have := hlt j hj
    simp only [List.getElem_range, BitVec.getLsbD_and, BitVec.getLsbD_not, hm] at this
    simpa [show j < 64 by omega] using this
  · cases h

/-- A late copy that is done with leaves its line to be copied again, to its record, or clear. -/
theorem lateDone_cases (c : LateCopy) (m : Migration) :
    (c.redrained = true ∧ Migration.lateDone c m = { m with lateCopy := none }) ∨
    (c.redrained = false ∧ c.line ∈ m.lateAwaited ∧
      Migration.lateDone c m = { m with lateCopy := none, lateSettled := putFlag m.lateSettled c.line true }) ∨
    (c.redrained = false ∧ c.line ∉ m.lateAwaited ∧
      Migration.lateDone c m = Migration.clearLate c.line { m with lateCopy := none }) := by
  unfold Migration.lateDone
  dsimp only
  split
  · exact .inl ⟨‹_›, rfl⟩
  · split
    · exact .inr (.inl ⟨by simp_all, ‹_›, rfl⟩)
    · exact .inr (.inr ⟨by simp_all, ‹_›, rfl⟩)

/-! ### Unit Control -/

/-- FAILED is entered once (R143). -/
theorem enterFailed_cases (cause : FailCause) (s : State) :
    (s.unit.state = .failed ∧ enterFailed cause s = s) ∨
    (s.unit.state ≠ .failed ∧ (enterFailed cause s).unit.state = .failed ∧
      (enterFailed cause s).unit.failCause = some cause ∧ (enterFailed cause s).media.inflight = [] ∧
      (enterFailed cause s).media.waiting = [] ∧ (enterFailed cause s).host.entries = [] ∧
      (enterFailed cause s).jrn.checkpoint = none) := by
  unfold enterFailed
  split
  · exact .inl ⟨‹_›, rfl⟩
  · refine .inr ⟨‹_›, rfl, rfl, ?_, ?_, rfl, rfl⟩ <;> simp [answerAllFailed, endWithoutResult] <;>
      rw [keep_foldl State.media _ (fun _ _ => by simp)] <;> rfl

theorem hardReset_spec (s : State) :
    (hardReset s).unit.state = .reset ∧ (hardReset s).map = MapController.unloaded ∧ (hardReset s).buf.slots = [] ∧
    (hardReset s).host.entries = [] ∧ (hardReset s).media = MediaPort.empty ∧ (hardReset s).time = State.reset.time ∧
    (hardReset s).out.mediaDiscard = true ∧ (hardReset s).pending = s.pending := ⟨rfl, rfl, rfl, rfl, rfl, rfl, rfl, rfl⟩

/-- Entry to RECOVERING requests the geometry record, or passes to SAFE at once under the warning (R144, R162). -/
theorem startRecovery_state (s : State) :
    (startRecovery s).unit.state = if s.unit.holdUp = true then .safe else .recovering := by
  unfold startRecovery
  cases h : s.unit.holdUp <;> simp [h, abandonToSafe, enterState_unit, request]

/-- SAFE is left for WRITE_PROTECTED with the latch set and for ONLINE otherwise (R167, R168). -/
theorem leaveSafe_state (s : State) :
    (leaveSafe s).unit.state = if s.map.latch = true then .writeProtected else .online := by
  simp [leaveSafe, enterState_unit]

/-- The settings commit does nothing, is rejected, or installs the staged set (R176). -/
theorem commitSettingsNow_cases (s : State) :
    (s.time.staged = s.time.active ∧ commitSettingsNow s = s) ∨
    (s.commitRejected = true ∧ commitSettingsNow s = raise .settingsRejected s) ∨
    (s.time.staged ≠ s.time.active ∧ s.time.staged.lowWater < s.time.staged.highWater ∧
      commitSettingsNow s = installSettings s) := by
  unfold commitSettingsNow
  split
  · exact .inl ⟨‹_›, rfl⟩
  · split
    · exact .inr (.inl ⟨‹_›, rfl⟩)
    · exact .inr (.inr ⟨‹_›, by simp_all [State.commitRejected], rfl⟩)

end Sys2Proof.Machine
end

