-- ==== Sys2Proof/Tests/Slice0.lean ====
section
/-! SUPPORT. Tests: the refusals of WellFormed, worked bytes and one-step effects taken from the manual, and for each obligation a state that meets its hypotheses. -/

namespace Sys2Proof.Tests

set_option Elab.async false

open Sys2Proof.Machine

/-! ### Small states -/

/-- The state a command leaves. -/
def after (o : Host.Outcome State Fault Refusal) : State :=
  match o with
  | .next s => s
  | _ => State.reset

/-- The smallest geometry: 1,024 frames, 45 of metadata, 16 spares, L = 963. -/
def geometry : GeometryRecord := { nP := 1024, spares := 16, retireWear := 65536, formatCount := 1 }

/-- A line of one byte value. -/
def filled (b : Byte) : LineData := Vector.replicate 64 b

/-- A frame record with a role, an owner and a wear. -/
def record (role : Role) (owner : Option Nat) (wear : Nat) : FrameRecord :=
  { role := role, owner := owner, wear := wear, corrected := 0, wanted := false, overdue := false }

/-- The tables of the small states: logical frames 0 and 1 at frames 45 and 46, line 3 of frame 0 poisoned, spares 47
and 48. -/
def tables : MapController :=
  { loaded := true
    entries :=
      [{ frame := 45, poison := 8#64, migrationMark := false, failMark := false },
       { frame := 46, poison := 0#64, migrationMark := false, failMark := false }]
    frames := List.replicate 45 (record .metadata none 0) ++
      [record .mapped (some 0) 9, record .mapped (some 1) 7, record .spare none 2, record .spare none 5]
    pool := [47, 48]
    fence := 2
    volatileFence := none
    latch := false
    unclean := 1 }

/-- A unit in a state that has no item of its own, with the geometry in use. -/
def unitIn (st : UnitState) : UnitControl :=
  { State.reset.unit with state := st, standing := some .inUse, geometry := some geometry }

/-- ONLINE with small tables, no request, empty ring, the descriptor of a format, tick 5,000. -/
def online : State :=
  { State.reset with
    unit := unitIn .online
    map := tables
    time := { State.reset.time with tick := 5000#32 }
    jrn := { JournalController.empty with
      nextSeq := 4#32, fence := 2, descriptor := some ⟨.a, 1#32, 1#32, 0, true⟩ } }

/-- WRITE_PROTECTED, otherwise as `online`. -/
def protected_ : State := { online with unit := unitIn .writeProtected, map := { tables with latch := true } }

/-- CLOSING in a stage, otherwise as `online`. -/
def closing (stage : Stage) : State := { online with unit := { unitIn .closing with stage := some stage } }

/-- DRAIN_LOCK in a stage under the warning, otherwise as `online`. -/
def locked (stage : Stage) : State :=
  { online with unit := { unitIn .drainLock with stage := some stage, holdUp := true } }

/-- SAFE with an origin, otherwise as `online`. -/
def safe (origin : SafeOrigin) : State := { online with unit := { unitIn .safe with safeOrigin := some origin } }

/-- UNFORMATTED: standing INVALID, no tables. -/
def unformatted : State :=
  { State.reset with unit := { State.reset.unit with state := .unformatted, standing := some .invalid } }

/-- FAILED by a second timeout, the tables loaded. -/
def failed : State := { online with unit := { unitIn .failed with failCause := some .secondTimeout } }

/-- RECOVERING at a step, with some work before it. -/
def recovering (w : RecoveryWork) : State :=
  { State.reset with
    unit := { State.reset.unit with
      state := .recovering, standing := some .inUse, geometry := some geometry, recovery := some w } }

/-- FORMAT's work at a step. -/
def formatWork (step : FormatStep) : FormatWork :=
  { spares := 16, retireWear := 65536, step := step, newCount := 2, imageCheck := 0#32 }

/-- FORMATTING at a step. -/
def formatting (step : FormatStep) : State :=
  { State.reset with unit := { State.reset.unit with state := .formatting, format := some (formatWork step) } }

/-- A DIRTY slot of a line under a valid mask, taken at tick 4,000 under accept sequence 1. -/
def slot (line : Nat) (valid : Flags64) : Slot :=
  { line := line, draining := false, data := filled 0x11#8, valid := valid, stamp := 4000#32, oldest := 1#32,
    newest := 1#32, redirty := none, failedOnce := false }

/-- A state with these slots. -/
def withSlots (slots : List Slot) (s : State) : State :=
  { s with buf := { s.buf with slots := slots }, host := { s.host with acceptSeq := 1#32 } }

/-- A state with these tag entries. -/
def withEntries (entries : List TagEntry) (s : State) : State := { s with host := { s.host with entries := entries } }

/-- A tag entry. -/
def entry (tag : BitVec 5) (kind : RequestKind) (line : Nat) (mask : Flags64) (standing : TagStanding) : TagEntry :=
  { tag := tag, kind := kind, line := line, mask := mask, data := filled 0x22#8, standing := standing }

/-- An operation in flight in place 0, sent at tick 4,000. -/
def operation (cls : MediaClass) (requester : Requester) (kind : MediaKind) (physical : Nat) : InFlight :=
  { id := ⟨0, 1#32, false⟩, request := ⟨cls, requester, kind, physical⟩, sent := 4000#32, limit := 20000 }

/-- A MEDIA WRITE of data. -/
def writing : MediaKind := .write (.data (filled 0x33#8))

/-- A state with this operation in flight. -/
def flying (op : InFlight) (s : State) : State := { s with media := { s.media with inflight := [op] } }

/-- A drain of a line in a phase, in place 0; the line lies in frame 45. -/
def drain (line : Nat) (mask : Flags64) (poisoned : Bool) (phase : DrainPhase) : Drain :=
  { place := 0, line := line, snapshot := filled 0x11#8, snapMask := mask, covered := 1#32, physical := 45 * 64 + line,
    poisoned := poisoned, formed := filled 0x11#8, phase := phase }

/-- A state that drains a line of logical frame 0. -/
def draining (sl : Slot) (d : Drain) (s : State) : State :=
  { withSlots [{ sl with draining := true }] s with
    buf := { s.buf with slots := [{ sl with draining := true }], drains := [d] } }

/-- A migration of logical frame 0 from frame 45 to frame 47. -/
def migration (phase : MigPhase) (reason : Reason) (target : Option Nat) : Migration :=
  { phase := phase, logical := 0, reason := reason, source := 45, target := target, copyIndex := 0,
    pendingPoison := 8#64, lateMask := 0#64, lateFail := none, lateCopy := none, lateAwaited := [],
    lateSettled := 0#64, abortPending := false, fate := .spare, commitDurable := false }

/-- The tables with spare 47 taken as TARGET for logical frame 0. -/
def targeted : MapController :=
  { tables with
    frames := tables.frames.modify 47 fun x => { x with role := .target, owner := some 0 }
    pool := [48] }

/-- A state with this migration in progress. -/
def moving (m : Migration) (s : State) : State := { s with mig := { s.mig with current := some m } }

/-- A checkpoint in progress in a phase. -/
def checkpoint (phase : CheckpointPhase) (written : Nat) : Checkpoint :=
  { phase := phase, area := .b, seq := 2#32, posSeq := 4#32, posSlot := 0, clean := false, linesWritten := written,
    image := Image.none, imageCheck := 0#32, slotsTaken := 0 }

/-- A state with this checkpoint in progress. -/
def checkpointing (c : Checkpoint) (s : State) : State := { s with jrn := { s.jrn with checkpoint := some c } }

/-- A state with these records staged. -/
def staged (records : List StagedRecord) (s : State) : State := { s with jrn := { s.jrn with staging := records } }

/-- What an optional value is known to be holds of whatever it is. -/
theorem of_some {α : Type} {p : α → Prop} {o : Option α} {x : α} (h : o = some x) (hx : p x) : ∀ y, o = some y → p y := by
  intro y hy
  rw [h] at hy
  exact Option.some.inj hy ▸ hx

/-! ### Terms WellFormed refuses -/

theorem test_wf_refuses_line_past_window : (Instr.drainAgeReached 67108864).wf = false := by decide +kernel
theorem test_wf_refuses_clamp_past_window : (Instr.stampAgeClamp 67108864).wf = false := by decide +kernel
theorem test_wf_refuses_wrong_check_count (w : Stored) (h : w.check.length = Config.eccCode.checkCount + 1)
    (id : AttemptId) :
    (Instr.hostReadReturn id w).wf = false ∧ (Instr.fillReadComplete id w).wf = false ∧
    (Instr.copyReadComplete id w).wf = false ∧ (Instr.formatOperationComplete id (.read w)).wf = false ∧
    (Instr.recoveryReadComplete id w).wf = false := by
  simp [Instr.wf, FormatCompletion.wf, Stored.wf, h]
theorem test_wf_admits_code_word (d : LineData) (id : AttemptId) : (Instr.hostReadReturn id (codeWord d)).wf = true := by
  simp [Instr.wf, Stored.wf, codeWord, eccCheckBytes]
theorem test_wide_geometry : (MetaLine.geometry ⟨1024, 65536, 65536, 1⟩ true).wf = false := by decide +kernel
theorem test_wide_record : (MetaLine.record 1#32 (.poisonSet 4194304) true).wf = false := by decide +kernel
theorem test_wide_header : (MetaLine.header ⟨1#32, 1#32, 65536, true, 0#32⟩ true).wf = false := by decide +kernel
theorem test_wide_image_item : (MetaLine.image [.frame (record .mapped (some 0) 4294967296)]).wf = false := by
  decide +kernel
theorem test_full_image_lines :
    imageLineFits (List.replicate 6 (.entry 65535 fullMask)) = true ∧
    imageLineFits (List.replicate 7 (.entry 65535 fullMask)) = false ∧
    imageLineFits (List.replicate 7 (.frame (record .mapped (some 65535) 4294967295))) = true ∧
    imageLineFits (List.replicate 8 (.frame (record .mapped (some 65535) 4294967295))) = false := by decide +kernel
theorem test_wf_refuses_long_parameters : (Instr.getStatus 0#8 (List.replicate 17 0#8)).wf = false := by decide +kernel
theorem test_wf_refuses_wrong_fence_choice :
    (Instr.setFenceVolatile 0#8 [1#8, 0#8, 1#8]).wf = false ∧ (Instr.setFencePersistent 0#8 [1#8, 0#8, 0#8]).wf = false := by
  decide +kernel
theorem test_wf_refuses_known_code : (Instr.unknownCommand 0x50#8 0#8 []).wf = false := by decide +kernel
theorem test_wf_refuses_good_transfer :
    (Instr.requestNotWellFormed [0x01#8, 0x00#8, 0x00#8, 0x6B#8]).wf = false := by decide +kernel
theorem test_wf_admits_widest :
    (Instr.stampAgeClamp 67108863).wf = true ∧ (Instr.getStatus 0#8 (List.replicate 16 0#8)).wf = true := by decide +kernel

/-! ### Worked bytes and one-step effects (expected values from the manual's text) -/

/-- R182 gives the request of GET_STATUS with tag 0 and the message of NO_RESPONSE. -/
theorem test_no_response_message :
    (after (exec (.responseRead 5) online)).out.link = [0x07#8, 0x00#8, 0x00#8, 0x16#8, 0xFF#8] := by decide +kernel
theorem test_bad_crc_is_not_decoded :
    decodeTransfer [0x01#8, 0x00#8, 0x00#8, 0x6A#8] = .requestNotWellFormed [0x01#8, 0x00#8, 0x00#8, 0x6A#8] := by
  decide +kernel
/-- Table 11.3: SET_FENCE is one code, its choice byte the third parameter. -/
theorem test_fence_choice_is_decoded :
    decodeTransfer (requestMessage 0x30#8 5#8 [2#8, 0#8, 1#8]) = .setFencePersistent 5#8 [2#8, 0#8, 1#8] ∧
    decodeTransfer (requestMessage 0x30#8 5#8 [2#8, 0#8, 0#8]) = .setFenceVolatile 5#8 [2#8, 0#8, 0#8] := by decide +kernel
/-- Table 10.2: a value one past each end of a range is outside it. -/
theorem test_setting_ranges :
    settingInRange 1 16 = true ∧ settingInRange 1 15 = false ∧ settingInRange 2 513 = false ∧
    settingInRange 8 1000001 = false ∧ settingInRange 10 255 = true ∧ settingInRange 0 1 = false := by decide +kernel
/-- R22: sequences compare with wrap. -/
theorem test_sequence_order_wraps : seqLe 0xFFFFFFFF#32 0#32 = true ∧ seqLe 0#32 0xFFFFFFFF#32 = false := by decide +kernel
/-- R23, R56: a first write takes accept sequence 1 and is answered DONE. -/
theorem test_first_write_takes_sequence_one :
    (after (exec (.hostWrite 3#5 5#26 1#64 (filled 0xAA#8)) online)).host.acceptSeq = 1#32 ∧
    (after (exec (.hostWrite 3#5 5#26 1#64 (filled 0xAA#8)) online)).out = oneResponse 3#5 .done zeroLine := by
  decide +kernel
/-- R45, R50: a write accepted behind a READ of its line in service is held; its entry keeps its byte mask and no data. -/
theorem test_held_answer_keeps_its_mask :
    (after (exec (.hostWrite 3#5 5#26 6#64 (filled 0xAA#8)) (withEntries [entry 4#5 .read 5 0#64 (.reading false)] online))).host.entries =
      [entry 4#5 .read 5 0#64 (.reading false), ⟨3#5, .write, 5, 6#64, zeroLine, .answerHeld⟩] := by decide +kernel
/-- R51, Table 3.4: a READ of a poisoned line is answered POISON with no medium read. -/
theorem test_poisoned_read :
    (after (exec (.hostRead 3#5 3#26) online)).out = oneResponse 3#5 .poison zeroLine ∧
    (after (exec (.hostRead 3#5 3#26) online)).media = online.media := by decide +kernel
/-- R53, R69: a READ of an unpoisoned line sends a MEDIA READ of its physical line from place 0. -/
theorem test_read_goes_to_the_medium :
    (after (exec (.hostRead 3#5 64#26) online)).out.media = [⟨⟨0, 1#32, false⟩, .read, 46 * 64⟩] := by decide +kernel
/-- R171: from reset released at tick 0 the first boundary is at the default SweepPeriod. -/
theorem test_release_sets_boundary :
    (after (exec (.resetRelease 0#6 1#2) State.reset)).time.nextBoundary = 1000000#32 ∧
    (after (exec (.resetRelease 0#6 1#2) State.reset)).out.media = [⟨⟨0, 1#32, false⟩, .read, 0⟩] := by decide +kernel
/-- R13: the pool of a fresh format starts at the lowest spare. -/
theorem test_pool_orders_wear_then_number :
    buildPool [record .spare none 5, record .spare none 2, record .mapped none 0, record .spare none 2] = [1, 3, 0] := by
  decide +kernel

/-- Table 11.12: kind code 2 is a PERSIST, which ignores mask and data; Table 11.13: DATA is 0 and NOT_READY 5. -/
theorem test_host_message_codes :
    decodeHostRequest 2#2 3#5 7#26 1#64 (filled 1#8) = .hostPersist 3#5 7#26 ∧ hostKind (.hostRead 3#5 7#26) = some 0#2 ∧
    (HostResponse.fields ⟨3#5, .notReady, zeroLine⟩).2.1 = 5#3 ∧ HostCode.data.field = 0#3 := by decide +kernel
/-- R57, R66: two READs begun in one happening arrive at the port in the order their requests arrived, tag 9 first. -/
theorem test_reads_arrive_in_request_order :
    inArrivalOrder [entry 9#5 .read 70 0#64 (.reading false), entry 1#5 .read 71 0#64 (.reading false)]
      [⟨.copy, .engine, .read, 5⟩, ⟨.hostRead, .host 1#5, .read, 71⟩, ⟨.hostRead, .host 9#5, .read, 70⟩] =
    [⟨.hostRead, .host 9#5, .read, 70⟩, ⟨.hostRead, .host 1#5, .read, 71⟩, ⟨.copy, .engine, .read, 5⟩] := by decide +kernel
/-- R26, R28, R75, R171: what waits after the tick that reaches 1,000,000. -/
theorem test_tick_brings_its_commands :
    ∀ s, s = flying { operation .hostRead (.host 4#5) .read 70 with sent := 980000#32 }
        { withSlots [{ slot 5 1#64 with stamp := 996000#32 }, { slot 9 1#64 with stamp := 3221225472#32 + 1000000#32 }]
          online with time := { online.time with tick := 999999#32 } } →
      (after (step s)).pending = [.stampAgeClamp 9, .drainAgeReached 5, .attemptTimeout 0, .sweepBoundary] := by
  rintro s rfl
  decide +kernel
/-- R101: with line 3 awaiting its record alone, the lowest line to be copied is 7; with its copy still to come, it is 3. -/
theorem test_late_lines_go_lowest_first :
    { migration .commitWait .manual (some 47) with lateMask := 0x88#64, lateSettled := 8#64 }.nextLate = some 7 ∧
    { migration .commitWait .manual (some 47) with lateMask := 0x88#64, lateAwaited := [3] }.nextLate = some 3 := by
  decide +kernel

/-! ### For each obligation, states that meet its hypotheses -/

/-- What a metadata line that the part can write is read back as. -/
theorem read_written {m : MetaLine} (h : m.written = true) :
    Config.metaFormat.read (Config.metaFormat.layout m) = m ∧
    errorsFrom (Config.metaFormat.layout m) (codeWord (Config.metaFormat.layout m)) = 0 :=
  ⟨metaFormat_read_layout h, errorsFrom_codeWord _⟩

/-- Each way a MEDIA READ ends where no frame table is loaded. -/
theorem readLeaves_each (s : State) (op : InFlight) (d : LineData) (h : s.map.frames = []) :
    (∃ w health media, errorsFrom d w = 0 ∧ s.ReadLeaves op w (some d) health media) ∧
    (∃ w health media, errorsFrom d w = 4 ∧ s.ReadLeaves op w (some d) health media) ∧
    ∃ w health media, s.ReadLeaves op w none health media := by
  have four := errorsFrom_flipped d [0, 7, 8, 511] (by decide +kernel)
  obtain ⟨w, hw⟩ := exists_uncorrectable
  exact ⟨⟨_, _, _, errorsFrom_codeWord d, .inl ⟨d, rfl, errorsFrom_codeWord d, rfl, rfl⟩⟩,
    ⟨_, _, _, four, .inr (.inl ⟨d, rfl, four.symm ▸ by decide, four.symm ▸ by decide, h, rfl, rfl⟩)⟩,
    w, _, _, .inr (.inr ⟨rfl, hw, rfl, rfl⟩)⟩

/-- Stored bits of each of the decoder's verdicts: a code word, one and four bits in error, and none within 4. -/
theorem witness_DecoderCorrectsUpToFourBits (d : LineData) :
    (∃ w, errorsFrom d w = 0) ∧ (∃ w, errorsFrom d w = 1) ∧ (∃ w, errorsFrom d w = 4) ∧
    (∃ w : Stored, ∀ d, 4 < errorsFrom d w) ∧
    (∃ a : Attempt, a.kind = .read) ∧ ∃ a : Attempt, a.kind = .write (.data d) :=
  ⟨⟨_, errorsFrom_codeWord d⟩, ⟨_, errorsFrom_flipped d [511] (by decide +kernel)⟩,
   ⟨_, errorsFrom_flipped d [0, 7, 8, 511] (by decide +kernel)⟩, exists_uncorrectable,
   ⟨⟨⟨0, 1#32, false⟩, .read, 0⟩, rfl⟩, ⟨⟨⟨0, 1#32, false⟩, .write (.data d), 0⟩, rfl⟩⟩

theorem witness_StepRunsFrontCommand :
    (online.setPending [.flush 0#8 [], .mediaGrant]).pending = .flush 0#8 [] :: [.mediaGrant] := rfl

/-- In RESET, one tick before a boundary, and two ticks before it. -/
theorem witness_EmptyQueueTicksTheCounter :
    State.reset.pending = [] ∧ State.reset.unit.state = .reset ∧ online.pending = [] ∧ online.unit.state ≠ .reset ∧
    { online with time := { online.time with tick := 999999#32 } }.time.tick + 1 = online.time.nextBoundary ∧
    { online with time := { online.time with tick := 999998#32 } }.time.tick + 1 ≠ online.time.nextBoundary := by
  decide +kernel

/-- A state with every kind of table in use: two slots, a drain, a READ in service, a migration, a checkpoint. -/
def busy : State :=
  let s := moving (migration .copy .manual (some 47)) (checkpointing (checkpoint .image 0) online)
  flying (operation .hostRead (.host 4#5) .read 70)
    { s with
      host := { entries := [entry 4#5 .read 70 0#64 (.reading false)], acceptSeq := 1#32, persists := [] }
      buf := { slots := [slot 5 1#64, { slot 64 fullMask with draining := true }], pressure := false, flush := none,
               drains := [{ drain 64 fullMask false .write with place := 3 }] }
      jrn := { s.jrn with staging := [⟨.engine, .spareRetire 48, none⟩] }
      pending := [.hostWrite 5#5 6#26 1#64 (filled 1#8)] }

theorem busy_bounded : busy.Bounded := by constructor <;> decide +kernel

theorem witness_StepKeepsEveryTableInBounds :
    busy.Bounded ∧ busy.health.bounded = true ∧ ∃ t, step busy = .next t :=
  ⟨busy_bounded, by decide +kernel, _, rfl⟩

theorem witness_StepKeepsTheMediaPortSound :
    (busy.media.inflight.map (·.id.place)).Nodup ∧ busy.OneOperationPerLine ∧ busy.StoppedSound ∧ failed.StoppedSound ∧ (∃ t, step busy = .next t) ∧
    ∃ t, step failed = .next t :=
  ⟨by decide +kernel, by unfold State.OneOperationPerLine; decide +kernel, by unfold State.StoppedSound; decide +kernel,
   by unfold State.StoppedSound; decide +kernel, ⟨_, rfl⟩, _, rfl⟩

theorem busy_settings : busy.SettingsSound := by constructor <;> decide +kernel

theorem witness_StepKeepsSettingsSound : busy.SettingsSound ∧ ∃ t, step busy = .next t := ⟨busy_settings, _, rfl⟩

theorem online_unitSound : online.UnitSound := by constructor <;> decide +kernel

theorem busy_unitSound : busy.UnitSound := by constructor <;> decide +kernel

theorem witness_StepKeepsUnitControlSound : busy.UnitSound ∧ busy.LatchSound ∧ ∃ t, step busy = .next t :=
  ⟨busy_unitSound, by unfold State.LatchSound; decide +kernel, _, rfl⟩

/-- HOLD_UP_ASSERT takes ONLINE to DRAIN_LOCK. -/
theorem witness_UnitStateChangesOnlyAsTabled :
    online.UnitSound ∧ online.StoppedSound ∧
    ∃ t, exec .holdUpAssert online = .next t ∧ t.unit.state ≠ online.unit.state ∧ t.unit.state ≠ .reset :=
  ⟨online_unitSound, by unfold State.StoppedSound; decide +kernel, _, rfl, by decide +kernel, by decide +kernel⟩

theorem witness_FailedKeepsTablesAndQueues :
    failed.StoppedSound ∧ failed.unit.state = .failed ∧
    ∃ t, exec (.hostRead 0#5 0#26) failed = .next t ∧ t.unit.state = .failed :=
  ⟨by unfold State.StoppedSound; decide +kernel, rfl, _, rfl, by decide +kernel⟩

/-- A command that is not from the link and is not RESET_ASSERT; the enables after a reset, and after the record that ends
CLOSING with restart pending. -/
theorem witness_LinkStateChangesOnlyAsRuled :
    fromLink .sweepBoundary = false ∧ Instr.sweepBoundary ≠ .resetAssert ∧ (∃ t, exec .sweepBoundary online = .next t) ∧
    (∃ t, exec (.restart 1#8 []) { safe .prepareOff with link := ⟨none, 0#17, 1#17⟩ } = .next t ∧
      t.link.enables = 0#17) ∧
    ∃ t, exec (.restart 1#8 []) (safe .prepareOff) = .next t ∧ ResetBy (.restart 1#8 []) (safe .prepareOff) t :=
  ⟨rfl, by decide, ⟨_, rfl⟩, ⟨_, rfl, by decide +kernel⟩, _, rfl,
   .inr (.inl ⟨⟨_, _, rfl⟩, by decide +kernel, by decide +kernel⟩)⟩

theorem witness_TimeBaseChangesOnlyAsRuled : ∃ t, exec .sweepBoundary online = .next t := ⟨_, rfl⟩

/-- A response other than DATA leaves the part. -/
theorem witness_OnlyDataResponsesCarryBytes :
    ∃ t, exec (.hostRead 3#5 3#26) online = .next t ∧ ∃ r ∈ t.out.host, r.code ≠ .data :=
  ⟨_, rfl, by decide +kernel⟩

theorem witness_ResetInputMakesTheHardResetAndRecovery :
    online.unit.state ≠ .reset ∧ State.reset.unit.state = .reset ∧ State.reset.quiet = true ∧
    State.reset.StoppedSound ∧ State.reset.unit.holdUp = false ∧
    { State.reset with unit := { State.reset.unit with holdUp := true } }.unit.holdUp = true ∧
    { State.reset with unit := { State.reset.unit with holdUp := true } }.StoppedSound :=
  ⟨by decide +kernel, rfl, by decide +kernel, by unfold State.StoppedSound; decide +kernel, rfl, rfl,
   by unfold State.StoppedSound; decide +kernel⟩

theorem witness_HoldUpWarningActsByUnitState :
    (locked .emptying).unit.holdUp = true ∧
    (unformatted.unit.holdUp = false ∧ unformatted.unit.state = .unformatted) ∧
    (∀ s, s = withEntries [entry 1#5 .write 9 1#64 .waiting, entry 2#5 .read 9 0#64 .waiting] online →
      (withEntries [entry 1#5 .write 9 1#64 .waiting, entry 2#5 .persist 9 0#64 .persistWaiting] online).unit.state =
        .online ∧ ((withEntries [entry 1#5 .write 9 1#64 .waiting] online).host.entries.map (·.tag)).Nodup ∧
      s.host.entries = [entry 1#5 .write 9 1#64 .waiting, entry 2#5 .read 9 0#64 .waiting] ∧ s.slot? 9 = none ∧
      s.losing 9 = false ∧ s.poisoned 9 = false) ∧
    (∀ s, s = { moving (migration .copy .manual (some 47)) online with
        media := { online.media with waiting := [⟨.copy, .engine, .read, 45 * 64⟩] } } →
      s.mig.current = some (migration .copy .manual (some 47)) ∧ s.jrn.checkpoint = none ∧ s.media.arriving = [] ∧
      ∀ r ∈ s.media.waiting, r.cls = .copy ↔ r.requester = .engine) ∧
    (∀ s, s = { moving (migration .commitWait .manual (some 47)) (checkpointing (checkpoint .image 0) online) with
        media := { online.media with waiting := [⟨.checkpoint, .checkpoint, writing, 9⟩] } } →
      s.mig.current = some (migration .commitWait .manual (some 47)) ∧ s.jrn.checkpoint ≠ none ∧
      ∀ r ∈ s.media.waiting, r.cls = .checkpoint ↔ r.requester = .checkpoint) ∧
    ((closing .shutdown).unit.holdUp = false ∧ (closing .shutdown).unit.state = .closing ∧
      (closing .shutdown).host.entries = [] ∧ (closing .shutdown).mig.current = none ∧
      (closing .shutdown).jrn.checkpoint = none) ∧
    ((formatting .headerA).unit.holdUp = false ∧ (formatting .headerA).unit.state = .formatting ∧
      (formatting .headerA).media.arriving = [] ∧ (formatting .headerA).media.waiting = []) ∧
    (∀ s, s = { safe .drainLock with unit := { (safe .drainLock).unit with holdUp := true } } →
      s.unit.holdUp = true ∧ s.unit.state = .safe ∧ s.unit.safeOrigin = some .drainLock ∧ s.map.loaded = true ∧
      s.jrn.waiters = [] ∧ s.jrn.staging.length < 16 ∧
      { s with map := MapController.unloaded }.map.loaded = false) ∧
    ((locked .emptying).unit.state ≠ .safe ∧ online.unit.holdUp = false) := by
  refine ⟨rfl, ⟨rfl, rfl⟩, ?_, ?_, ?_, ⟨rfl, rfl, rfl, rfl, rfl⟩, ⟨rfl, rfl, rfl, rfl⟩, ?_, by decide +kernel, rfl⟩ <;>
    (rintro s rfl; decide +kernel)

/-- The tick at the boundary; staged sets equal, in order with a new watermark, and out of order; CLOSING with the ring at
its trigger, one slot below it, and with a checkpoint in progress. -/
theorem witness_SweepBoundaryOutsideServiceCommitsSettingsAlone :
    online.time.tick ≠ online.time.nextBoundary ∧
    (∀ s, s = { safe .prepareOff with time := { online.time with tick := 1000000#32 } } →
      s.time.tick = s.time.nextBoundary ∧ s.unit.state = .safe ∧ s.time.staged = s.time.active ∧
      { s.time with staged := { s.time.staged with lowWater := 383 } }.staged ≠ s.time.active ∧
      { s.time with staged := { s.time.staged with lowWater := 383 } }.staged.lowWater < 384 ∧
      { s.time with staged := { s.time.staged with lowWater := 384 } }.staged ≠ s.time.active ∧
      384 ≤ { s.time with staged := { s.time.staged with lowWater := 384 } }.staged.lowWater) ∧
    (∀ s, s = { closing .emptying with
        time := { online.time with tick := 1000000#32 }, jrn := { online.jrn with head := 1500, tail := 2012 } } →
      s.time.tick = s.time.nextBoundary ∧ s.unit.state = .closing ∧ s.jrn.checkpoint = none ∧
      s.jrn.descriptor = some ⟨.a, 1#32, 1#32, 0, true⟩ ∧ (s.jrn.head + 2048 - s.jrn.tail) % 2048 = 1536 ∧
      ({ s.jrn with head := 1499 }.head + 2048 - s.jrn.tail) % 2048 = 1535 ∧
      (checkpointing (checkpoint .image 0) s).jrn.checkpoint ≠ none) ∧
    (recovering recoveryStart).unit.state = .recovering := by
  refine ⟨by decide +kernel, ?_, ?_, rfl⟩ <;> (rintro s rfl; decide +kernel)

/-- The tick at the boundary, no frame retire-wanted, the ring below its trigger; a hottest frame at LevelThreshold above
the pool head, one below it, and one of equal wear after it; a LEVEL request in hand; no spare. -/
theorem witness_SweepBoundaryInServiceSweepsAndCounts :
    ∀ s, s = { online with time := { online.time with tick := 1000000#32 } } →
      (s.unit.state = .online ∧ s.time.tick = s.time.nextBoundary ∧ s.time.staged.lowWater < s.time.staged.highWater ∧
        s.time.staged = s.time.active ∧
        (∀ r ∈ s.map.frames, r.role = .mapped → r.wanted = true → r.overdue = true) ∧
        (s.jrn.head + 2048 - s.jrn.tail) % 2048 < 1536 ∧ s.time.sweeps + 1 < s.time.active.checkpointEvery ∧
        s.map.pool = 47 :: [48] ∧ s.frame? 47 = some (record .spare none 2) ∧
        s.frame? 45 = some (record .mapped (some 0) 9) ∧ 9 < 2 + s.time.active.levelThreshold ∧
        2 + { s.time.active with levelThreshold := 7 }.levelThreshold ≤ 9) ∧
      (∀ f ∈ List.range 49, ∀ x, s.frame? f = some x → x.role = .mapped → x.wear < 9 ∨ (x.wear = 9 ∧ 45 ≤ f)) ∧
      (s.mig.isQueued 0 = false ∧ s.mig.isMoving 0 = false ∧ s.overdueFrame 0 = false ∧ s.mig.queued < 8) ∧
      (∀ m : MigrationEngine, m = { s.mig with backQueue := [⟨0, .level⟩] } → ∃ q ∈ m.backQueue, q.reason = .level) ∧
      { s.map with pool := [] }.pool = [] ∧ protected_.unit.state = .writeProtected := by
  rintro s rfl
  refine ⟨by decide +kernel, ?_, by decide +kernel, ?_, rfl, rfl⟩
  · intro f hf x hx
    fin_cases hf <;> revert hx <;> (intro hx; cases hx; decide)
  · rintro m rfl
    exact ⟨_, List.mem_singleton_self _, rfl⟩

/-- No wanted frame; two wanted frames with room; one wanted frame with the queue full, of MANUAL and of retire requests;
one whose owner is queued. -/
theorem witness_RequeuingOffersWantedFramesInOrder :
    online.wantedFrames = [] ∧
    (∀ s, s = { online with map := { tables with
        frames := (tables.frames.modify 45 fun x => { x with wanted := true }).modify 46 fun x =>
          { x with wanted := true } } } →
      s.wantedFrames = [45, 46] ∧ s.running = true ∧ s.mig.queued + s.wantedFrames.length ≤ 8 ∧
      s.frame? 46 = some { record .mapped (some 1) 7 with wanted := true } ∧ s.entry? 1 = some ⟨46, 0#64, false, false⟩ ∧
      s.mig.isQueued 1 = false ∧ s.mig.isMoving 1 = false) ∧
    (∀ s, s = { online with
        map := { tables with frames := tables.frames.modify 45 fun x => { x with wanted := true } }
        mig := { online.mig with backQueue := List.replicate 7 (MigRequest.mk 1 .manual) ++ [MigRequest.mk 1 .level] } } →
      s.wantedFrames = [45] ∧ 8 ≤ s.mig.queued ∧ s.mig.backQueue = List.replicate 7 (MigRequest.mk 1 .manual) ++ [MigRequest.mk 1 .level] ∧
      s.mig.isQueued 0 = false ∧
      (∀ m : MigrationEngine, m = { s.mig with retireQueue := List.replicate 8 ⟨1, .retireWear⟩, backQueue := [] } →
        8 ≤ m.queued ∧ m.backQueue = []) ∧
      (∀ m : MigrationEngine, m = { s.mig with retireQueue := [⟨0, .retireWear⟩] } → m.isQueued 0 = true)) := by
  refine ⟨by decide +kernel, ?_, ?_⟩
  · rintro s rfl
    decide +kernel
  · rintro s rfl
    refine ⟨by decide +kernel, by decide +kernel, by decide +kernel, by decide +kernel, ?_, ?_⟩ <;>
      (rintro m rfl; decide +kernel)

/-- A partial slot of an unpoisoned line, the only one, over its age, with every place free; two slots of one age, the later
in the list with the lower oldest sequence; a slot not due. -/
theorem witness_DrainIssueTakesTheFirstPhase :
    (∀ s x y, x = { slot 5 1#64 with stamp := 1000#32, oldest := 7#32 } →
      y = { slot 9 1#64 with stamp := 1000#32, oldest := 3#32 } → s = withSlots [x, y] online →
      (∀ z ∈ s.buf.slots, (z.oldest - 3#32).toNat < 2 ^ 31) ∧
      s.time.active.drainAge ≤ (s.time.tick - x.stamp).toNat ∧ s.nextToDrain = some y) ∧
    (withSlots [slot 5 1#64] online).nextToDrain = none ∧
    ∀ s, s = withSlots [{ slot 5 1#64 with stamp := 1000#32 }] online →
      s.working = true ∧ freeDrainPlace s.buf = some 0 ∧
      s.nextToDrain = some { slot 5 1#64 with stamp := 1000#32 } ∧
      (∀ e ∈ followUps.dropLast, e (beginHappening s) = none) ∧
      nextFollowUp (issueDrain 0 { slot 5 1#64 with stamp := 1000#32 } (beginHappening s)) = none := by
  refine ⟨?_, by decide +kernel, ?_⟩
  · rintro s x y rfl rfl rfl
    decide +kernel
  · rintro s rfl
    decide +kernel

/-- A first attempt at its deadline in place 0, a retry at its deadline, and no attempt at its deadline in place 7. -/
theorem witness_DeadlinesRetryOnceAndThenFail :
    ∀ op s, op = { operation .hostRead (.host 4#5) .read 70 with sent := 0#32, limit := 5000 } →
      s = flying op online →
      s.overdueAttempt? 0 = some op ∧ op.id.retry = false ∧ s.overdueAttempt? 7 = none ∧
      (flying { op with id := { op.id with retry := true } } online).overdueAttempt? 0 =
        some { op with id := { op.id with retry := true } } ∧ s.unit.state ≠ .failed := by
  rintro op s rfl rfl
  decide +kernel

/-- RESET, an occupied tag, a unit with no tables, SAFE with the tables not loaded, and the line on the fence. -/
theorem witness_HostRequestsMeetTheArrivalChecks :
    State.reset.unit.state = .reset ∧
    (withEntries [entry 31#5 .read 0 0#64 .waiting] online).occupied 31#5 = true ∧
    (unformatted.unit.state = .unformatted ∧ unformatted.occupied 31#5 = false) ∧
    ({ safe .drainLock with map := MapController.unloaded }.unit.state = .safe ∧
      { safe .drainLock with map := MapController.unloaded }.map.loaded = false) ∧
    (online.serves ∧ online.occupied 0#5 = false ∧ online.activeFence ≤ (128#26).toNat / 64) :=
  ⟨rfl, by decide +kernel, by decide +kernel, by decide +kernel, by unfold State.serves; decide +kernel, by decide +kernel,
   by decide +kernel⟩

theorem online_passes (tag : BitVec 5) (line : Nat) (h : line < 128) : online.Passes tag line :=
  ⟨by unfold State.serves; decide +kernel, rfl,
   by have : online.activeFence = 2 := by decide +kernel
      omega⟩

/-- The last line below the fence, 127: full slot, losing, poisoned, in the medium, behind a waiting write. -/
theorem witness_HostReadIsDecidedAtItsService :
    online.Passes 0#5 127 ∧ online.HeldAnswersWait ∧ online.earlierWriteWaits 127 = false ∧
    online.slot? 127 = none ∧ online.losing 127 = false ∧ online.poisoned 127 = false ∧
    online.poisoned 3 = true ∧
    (withEntries [entry 1#5 .write 127 1#64 .waiting] online).earlierWriteWaits 127 = true ∧
    (withSlots [slot 127 fullMask] online).slot? 127 = some (slot 127 fullMask) ∧
    (draining (slot 5 1#64) (drain 5 1#64 false .losing) online).losing 5 = true :=
  ⟨online_passes 0#5 127 (by omega), by unfold State.HeldAnswersWait; decide +kernel, by decide +kernel⟩

/-- A first write, a merge, the empty mask, and every slot taken. -/
theorem witness_HostWriteIsAcceptedRefusedOrQueued :
    online.Passes 0#5 127 ∧
    (online.unit.state = .online ∧ (1#64 : Flags64) ≠ 0#64 ∧ online.boundHolds = false ∧
      online.earlierWriteWaits 127 = false ∧ online.slot? 127 = none ∧ online.buf.slots.length < 512 ∧
      (withSlots [slot 127 1#64] online).slot? 127 ≠ none ∧ protected_.unit.state ≠ .online ∧
      ∀ e ∈ online.host.entries, e.line = 127 → e.inService = false) ∧
    (∀ s, s = withSlots (List.replicate 512 (slot 5 1#64)) online →
      s.slot? 127 = none ∧ 512 ≤ s.buf.slots.length) :=
  ⟨online_passes 0#5 127 (by omega), by decide +kernel, by rintro s rfl; decide +kernel⟩

/-- A PERSIST free to be taken with its barrier satisfied, one with a slot below its barrier, one behind a waiting
write; a waiting PERSIST to be taken; a barrier of the list and a flush barrier satisfied; FAILED. -/
theorem witness_PersistsAreTakenAndAnswered :
    online.serves ∧
    (online.occupied 0#5 = false ∧ online.host.persists.length < 8 ∧ online.host.entries = [] ∧
      online.satisfied online.host.acceptSeq = true ∧ (withSlots [slot 5 1#64] online).satisfied 1#32 = false ∧
      (∃ e ∈ (withEntries [entry 1#5 .write 9 1#64 .waiting] online).host.entries, e.waitingWrite = true) ∧
      failed.unit.state = .failed) ∧
    (∀ s, s = withEntries [entry 2#5 .persist 0 0#64 .persistWaiting] online →
      s.host.entries.find? (fun x => x.standing = .persistWaiting) = some (entry 2#5 .persist 0 0#64 .persistWaiting) ∧
      ∀ x ∈ s.host.entries.takeWhile (fun y => y.tag ≠ 2#5), x.waitingWrite = false) ∧
    (∀ s, s = { online with host := { online.host with persists := [⟨2#5, 0#32⟩] }, buf := { online.buf with flush := some 0#32 } } →
      s.unit.state ≠ .failed ∧ s.host.persists = [⟨2#5, 0#32⟩] ∧ s.satisfied 0#32 = true ∧ s.buf.flush = some 0#32) :=
  ⟨by unfold State.serves; decide +kernel, by decide +kernel, by rintro s rfl; decide +kernel,
   by rintro s rfl; decide +kernel⟩

theorem witness_WaitQueueTakeAcceptsTheOldestWaitingWrite :
    ∀ s, s = withEntries [entry 2#5 .write 9 1#64 .waiting] online →
      s.unit.state = .online ∧ s.nextWaiting = some (entry 2#5 .write 9 1#64 .waiting) ∧ s.slot? 9 = none ∧
      ∀ x ∈ s.host.entries, x.line = 9 → x = entry 2#5 .write 9 1#64 .waiting := by
  rintro s rfl
  decide +kernel

/-- One waiting request with an operation to another line in flight; place 0 alone free, with a COPY request waiting at a
count of 31 beside the DRAIN request that is chosen; a port where CHECKPOINT is promoted, one where COPY
is, and one where neither is; two READs whose requests arrive out of their order in one happening. -/
theorem witness_GrantsFollowTheArbiter :
    (∀ r s, r = (⟨.drain, .drain 1, writing, 71⟩ : MediaRequest) →
      s = { flying (operation .hostRead (.host 4#5) .read 70) online with
        media := { (flying (operation .hostRead (.host 4#5) .read 70) online).media with waiting := [r] } } →
      s.unit.state ≠ .reset ∧ s.unit.state ≠ .failed ∧ s.media.waiting = [r] ∧ s.media.arriving = [] ∧
      freeMediaPlace s.media = some 1 ∧ (∀ op ∈ s.media.inflight, op.request.physical ≠ r.physical) ∧
      chooseRequest s.media = some r) ∧
    (∀ s (c r : MediaRequest), c = ⟨.copy, .engine, .read, 10⟩ → r = ⟨.drain, .drain 1, writing, 71⟩ →
      s = { online with media := { online.media with
        waiting := [c, r], promoCopy := 31
        inflight := (List.finRange 8).tail.map fun (p : Fin 8) =>
          { operation .hostRead (.host 4#5) .read (100 + p.val) with id := ⟨p, 1#32, false⟩ } } } →
      s.media.arriving = [] ∧ freeMediaPlace s.media = some 0 ∧ chooseRequest s.media = some r ∧
      (∀ q : Fin 8, q ≠ 0 → ∃ op ∈ s.media.inflight, op.id.place = q) ∧ r.cls ≠ .copy ∧
      (∃ q ∈ s.media.waiting, q.cls = .copy) ∧ (∀ q ∈ s.media.waiting, q.cls ≠ .checkpoint) ∧ s.media.promoCopy + 1 = 32) ∧
    (∀ m (c d : MediaRequest), c = ⟨.copy, .engine, .read, 10⟩ → d = ⟨.checkpoint, .checkpoint, writing, 20⟩ →
      m = { MediaPort.empty with waiting := [c, d], promoCheckpoint := 32 } →
      chooseRequest m = some d ∧ chooseRequest { m with promoCheckpoint := 31, promoCopy := 32 } = some c ∧
      chooseRequest { m with promoCheckpoint := 31 } = some d) ∧
    (∀ s (a b : MediaRequest), a = ⟨.hostRead, .host 4#5, .read, 70⟩ → b = ⟨.hostRead, .host 5#5, .read, 71⟩ →
      s = { withEntries [entry 5#5 .read 71 0#64 (.reading false), entry 4#5 .read 70 0#64 (.reading false)] online with
        media := { online.media with arriving := [a, b] } } →
      (joinWaiting s).media.waiting = [b, a]) := by
  refine ⟨?_, ?_, ?_, ?_⟩
  · rintro r s rfl rfl
    decide +kernel
  · rintro s c r rfl rfl rfl
    decide +kernel
  · rintro m c d rfl rfl rfl
    decide +kernel
  · rintro s a b rfl rfl rfl
    decide +kernel

/-- A completion of the place's previous grant. -/
theorem witness_StaleCompletionsHaveNoEffect :
    (flying (operation .hostRead (.host 4#5) .read 70) online).inFlight? ⟨0, 0#32, false⟩ = none ∧
    (flying (operation .hostRead (.host 4#5) .read 70) online).quiet = true := by decide +kernel

/-- A READ of a line in the medium, unpoisoned and then poisoned, with a full slot, and with its writes being lost; a DONE
held behind it; the stored bits of each verdict are those of `witness_DecoderCorrectsUpToFourBits`. -/
theorem witness_HostReadReturnDecides :
    ∀ op s, op = operation .hostRead (.host 4#5) .read (45 * 64 + 5) →
      s = flying op (withEntries [entry 4#5 .read 5 0#64 (.reading false)] { online with unit := unitIn .closing }) →
      s.Reading op (.host 4#5) ∧ s.tagEntry? 4#5 = some (entry 4#5 .read 5 0#64 (.reading false)) ∧
      (∀ x ∈ s.host.entries, x.standing ≠ .answerHeld) ∧ s.slot? 5 = none ∧ s.losing 5 = false ∧
      s.poisoned 5 = false ∧ s.poisoned 3 = true ∧ s.map.loaded = true ∧
      s.frame? (op.request.physical / 64) = some (record .mapped (some 0) 9) ∧
      (record .mapped (some 0) 9).corrected + 1 < s.time.active.retireErrors ∧ s.running = false ∧
      (withSlots [slot 5 fullMask] s).slot? 5 = some (slot 5 fullMask) ∧
      (draining (slot 5 1#64) (drain 5 1#64 false .losing) s).losing 5 = true ∧
      ∀ es, es = s.host.entries ++ [entry 6#5 .write 5 0#64 .answerHeld] → (es.map (·.tag)).Nodup ∧
        releasableIn [] es = [] ∧ ∀ x ∈ es.filter (fun x => x.tag ≠ 4#5), x.line = 5 → x.inService = false := by
  rintro op s rfl rfl
  refine ⟨⟨by decide +kernel, by decide +kernel, by decide +kernel⟩, ?_⟩
  simp only [forall_eq]
  decide +kernel

/-- The frame of logical frame 0, with each case of the queue and of the migration in progress. -/
theorem witness_RetireCausesFollowTable52 :
    (online.frame? 45 = some (record .mapped (some 0) 9) ∧ online.frame? 47 = some (record .spare none 2) ∧
      online.running = true ∧ (closing .emptying).running = false ∧ online.overdueFrame 0 = false ∧
      online.mig.isMoving 0 = false ∧ online.mig.isQueued 0 = false ∧ online.mig.queued < 8) ∧
    { online with map := { tables with
      frames := tables.frames.modify 45 fun x => { x with overdue := true } } }.overdueFrame 0 = true ∧
    (moving (migration .copy .level (some 47)) online).mig.current = some (migration .copy .level (some 47)) ∧
    (∀ m : MigrationEngine, m = { online.mig with retireQueue := [⟨0, .retireWear⟩] } → names 0 m.retireQueue = true) ∧
    (∀ m : MigrationEngine, m = { online.mig with backQueue := [⟨0, .level⟩] } → names 0 m.retireQueue = false ∧ names 0 m.backQueue = true) ∧
    (∀ m : MigrationEngine, m = { online.mig with backQueue := List.replicate 7 ⟨1, .manual⟩ ++ [⟨1, .manual⟩] } →
      m.isQueued 0 = false ∧ 8 ≤ m.queued) ∧
    (∀ m : MigrationEngine, m = { online.mig with retireQueue := List.replicate 8 ⟨1, .retireWear⟩ } →
      m.isQueued 0 = false ∧ 8 ≤ m.queued ∧ m.backQueue = []) := by
  refine ⟨by decide +kernel, by decide +kernel, rfl, ?_, ?_, ?_, ?_⟩ <;> (rintro m rfl; decide +kernel)

/-- A fill read of a partial slot of line 5 in CLOSING. -/
theorem witness_FillReadFormsTheLine :
    ∀ op s, op = operation .drain (.drain 0) .read (45 * 64 + 5) →
      s = flying op (draining (slot 5 1#64) (drain 5 1#64 false .fill) (closing .emptying)) →
      s.Reading op (.drain 0) ∧ s.drain? 0 = some (drain 5 1#64 false .fill) ∧ s.unit.state = .closing ∧
      s.poisoned 5 = false ∧ s.map.loaded = true ∧
      s.frame? ((drain 5 1#64 false .fill).physical / 64) = some (record .mapped (some 0) 9) ∧ s.jrn.waiters = [] ∧
      s.jrn.staging.length < 16 := by
  rintro op s rfl rfl
  exact ⟨⟨by decide +kernel, by decide +kernel, by decide +kernel⟩, by decide +kernel⟩

/-- A drain write of a full slot of line 5, with its frame in no migration and in COMMIT_WAIT; one of line 3, poisoned, with
a staging queue that has room, one that is full, and one that others wait for. -/
theorem witness_DrainWriteStoredEndsTheDrain :
    (∀ op s, op = operation .drain (.drain 0) writing (45 * 64 + 5) →
      s = flying op (draining (slot 5 fullMask) (drain 5 fullMask false .write) online) →
      s.Writing op (.drain 0) ∧ s.drain? 0 = some (drain 5 fullMask false .write) ∧
      s.slot? 5 = some { slot 5 fullMask with draining := true } ∧
      op.request.physical = (drain 5 fullMask false .write).physical ∧
      s.NotWornOut ((drain 5 fullMask false .write).physical / 64) ∧
      (moving (migration .commitWait .manual (some 47)) s).mig.current = some (migration .commitWait .manual (some 47))) ∧
    (∀ op s, op = operation .drain (.drain 0) writing (45 * 64 + 3) →
      s = flying op (draining (slot 3 fullMask) (drain 3 fullMask true .write) online) →
      s.Writing op (.drain 0) ∧ s.drain? 0 = some (drain 3 fullMask true .write) ∧
      s.slot? 3 = some { slot 3 fullMask with draining := true } ∧ s.jrn.waiters = [] ∧ s.jrn.staging.length < 16 ∧
      16 ≤ (staged (List.replicate 16 ⟨.engine, .opened, none⟩) s).jrn.staging.length ∧
      s.creatorWaits (.drain 0) = false ∧
      { s with jrn := { s.jrn with waiters := [⟨.engine, [.opened]⟩] } }.creatorWaits (.drain 0) = false) := by
  refine ⟨?_, ?_⟩ <;> rintro op s rfl rfl
  · exact ⟨⟨by decide +kernel, by decide +kernel, by decide +kernel⟩, by decide +kernel, by decide +kernel,
      by decide +kernel, of_some (x := record .mapped (some 0) 9) (by decide +kernel) (by decide +kernel), rfl⟩
  · exact ⟨⟨by decide +kernel, by decide +kernel, by decide +kernel⟩, by decide +kernel⟩

/-- The first fail of line 5 in CLOSING and in ONLINE; the second fail of line 3, which is poisoned, and of line 5, which
is not, in CLOSING. -/
theorem witness_ProgramFailOfADrainReturnsOrLosesTheSlot :
    (∀ op s, op = operation .drain (.drain 0) writing (45 * 64 + 5) →
      s = flying op (draining (slot 5 fullMask) (drain 5 fullMask false .write) (closing .emptying)) →
      s.Writing op (.drain 0) ∧ s.drain? 0 = some (drain 5 fullMask false .write) ∧
      s.slot? 5 = some { slot 5 fullMask with draining := true } ∧ s.commitWaitOf 0 = false ∧
      s.frame? 45 = some (record .mapped (some 0) 9) ∧ s.map.loaded = true ∧ s.unit.state = .closing) ∧
    (∀ op s, op = operation .drain (.drain 0) writing (45 * 64 + 5) →
      s = flying op (draining (slot 5 fullMask) (drain 5 fullMask false .write) online) →
      s.Writing op (.drain 0) ∧ s.commitWaitOf 0 = false ∧ s.running = true ∧ s.overdueFrame 0 = false ∧
      s.mig.isMoving 0 = false ∧ s.mig.isQueued 0 = false ∧ s.mig.queued < 8) ∧
    (∀ op s, op = operation .drain (.drain 0) writing (45 * 64 + 3) →
      s = flying op (draining { slot 3 1#64 with failedOnce := true } (drain 3 1#64 true .write) (closing .emptying)) →
      s.Writing op (.drain 0) ∧ s.drain? 0 = some (drain 3 1#64 true .write) ∧
      s.slot? 3 = some { slot 3 1#64 with draining := true, failedOnce := true } ∧ s.poisoned 3 = true) ∧
    (∀ op s, op = operation .drain (.drain 0) writing (45 * 64 + 5) →
      s = flying op (draining { slot 5 1#64 with failedOnce := true } (drain 5 1#64 false .write) (closing .emptying)) →
      s.Writing op (.drain 0) ∧ s.poisoned 5 = false ∧ s.jrn.waiters = [] ∧ s.jrn.staging.length < 16) := by
  refine ⟨?_, ?_, ?_, ?_⟩ <;> rintro op s rfl rfl <;>
    exact ⟨⟨by decide +kernel, by decide +kernel, by decide +kernel⟩, by decide +kernel⟩

/-- A queued request; a migration in QUIESCE with a spare, and with none for a MANUAL and a retire
reason, a write waiting or not. -/
theorem witness_MigrationIsTakenAndAsksForATarget :
    (∀ s, s = { online with mig := { online.mig with backQueue := [⟨0, .manual⟩] } } →
      s.unit.state = .online ∧ s.mig.current = none ∧ s.mig.retireQueue = [] ∧ s.mig.backQueue = [⟨0, .manual⟩] ∧
      s.entry? 0 = some ⟨45, 8#64, false, false⟩) ∧
    (∀ s, s = moving (migration .quiesce .manual none) online →
      s.engineRuns = true ∧ (migration .quiesce .manual none).abortPending = false ∧ s.frameDraining 0 = false ∧
      s.entry? 0 = some ⟨45, 8#64, false, false⟩ ∧ s.map.pool = [47, 48] ∧
      { s with map := { s.map with pool := [] } }.map.pool = [] ∧ Reason.manual.retire = false ∧
      Reason.retireWear.retire = true ∧ protected_.unit.state ≠ .online ∧ s.unit.state = .online ∧
      s.host.entries = [] ∧
      (((withEntries [entry 1#5 .write 9 1#64 .waiting] s).host.entries.map (·.tag)).Nodup ∧
        ∀ x ∈ (withEntries [entry 1#5 .write 9 1#64 .waiting] s).host.entries, x.standing = .waiting → x.kind = .write)) := by
  refine ⟨?_, ?_⟩ <;> (rintro s rfl; decide +kernel)

/-- A copy read in CLOSING and one in ONLINE; a copy write of line 0, and of line 63, with a spare left for a failed target. -/
theorem witness_CopyOutcomesCarryTheMigration :
    (∀ op s, op = operation .copy .engine .read (45 * 64) →
      s = flying op (moving (migration .copy .manual (some 47)) (closing .emptying)) →
      s.Reading op .engine ∧ (migration .copy .manual (some 47)).abortPending = false ∧ s.unit.state = .closing ∧
      s.map.loaded = true ∧ s.frame? 45 = some (record .mapped (some 0) 9) ∧ op.request.physical / 64 = 45 ∧
      (record .mapped (some 0) 9).corrected + 1 < s.time.active.retireErrors) ∧
    (∀ op m s, op = operation .copy .engine writing (47 * 64 + 63) →
      m = { migration .copy .manual (some 47) with copyIndex := 63 } →
      s = flying op (moving m { online with map := { tables with pool := [48] } }) →
      s.Writing op .engine ∧ s.mig.current = some m ∧ m.phase = .copy ∧ m.copyIndex = 63 ∧
      s.frame? m.source = some (record .mapped (some 0) 9) ∧ m.source ≠ op.request.physical / 64 ∧
      s.jrn.waiters = [] ∧ s.jrn.staging.length < 16 ∧ (migration .copy .manual (some 47)).copyIndex < 63 ∧
      s.entry? 0 = some ⟨45, 8#64, false, false⟩ ∧ s.map.pool = 48 :: []) := by
  refine ⟨?_, ?_⟩
  · rintro op s rfl rfl
    exact ⟨⟨by decide +kernel, by decide +kernel, by decide +kernel⟩, by decide +kernel⟩
  · rintro op m s rfl rfl rfl
    exact ⟨⟨by decide +kernel, by decide +kernel, by decide +kernel⟩, by decide +kernel⟩

/-- A migration in COMMIT_WAIT whose record is durable. -/
theorem witness_SwitchMovesTheFrame :
    ∀ m s, m = { migration .commitWait .retireWear (some 47) with fate := .retired, commitDurable := true } →
      s = moving m online →
      s.working = true ∧ s.mig.current = some m ∧ m.lateMask = 0#64 ∧ s.frameDraining m.logical = false ∧
      m.source ≠ 47 ∧ m.fate = .retired ∧ { m with fate := .spare, reason := .level }.fate = .spare ∧ s.frame? 47 = some (record .spare none 2) ∧
      (record .spare none 2).wear < s.retireWear ∧ (record .spare none 2).corrected < s.time.active.retireErrors := by
  rintro m s rfl rfl
  decide +kernel

/-- A late line 63 behind a late line 3 that awaits its record alone; a late copy of line 63 in DRAIN_LOCK being read and
being written, drained again or not, after a first fail or not; an abort pending with no target held, and with one of wear
2 held, before a spare of wear 5. -/
theorem witness_LateCopiesAndAbortsEnd :
    (∀ m s, m = { migration .commitWait .manual (some 47) with lateMask := 1#64 <<< 63 ||| 8#64, lateSettled := 8#64 } →
      s = moving m online →
      s.working = true ∧ m.phase = .commitWait ∧ s.frameDraining m.logical = false ∧ m.lateCopy = none ∧
      m.lateMask.getLsbD 63 = true ∧ m.lateSettled.getLsbD 63 = false ∧
      (∀ j, j < 63 → m.lateMask.getLsbD j = true → m.lateSettled.getLsbD j = true) ∧ m.target = some 47) ∧
    (∀ op m s, op = operation .copy .engine .read (45 * 64 + 63) →
      m = { migration .commitWait .manual (some 47) with lateMask := 1#64 <<< 63, lateCopy := some ⟨63, false⟩ } →
      s = flying op (moving m (locked .emptying)) →
      s.Reading op .engine ∧ s.mig.current = some m ∧ s.map.loaded = true ∧ s.unit.state = .drainLock ∧
      s.frame? 45 = some (record .mapped (some 0) 9) ∧ s.jrn.waiters = [] ∧ s.jrn.staging.length < 16) ∧
    (∀ op m s, op = operation .copy .engine writing (47 * 64 + 63) →
      m = { migration .commitWait .manual (some 47) with lateMask := 1#64 <<< 63, lateCopy := some ⟨63, false⟩ } →
      s = flying op (moving m (locked .emptying)) →
      s.Writing op .engine ∧ m.lateFail ≠ some 63 ∧ { m with lateFail := some 63 }.lateFail = some 63 ∧
      { m with lateCopy := some ⟨63, true⟩ }.lateCopy = some ⟨63, true⟩ ∧ 63 ∉ m.lateAwaited ∧
      63 ∈ { m with lateAwaited := [63] }.lateAwaited ∧ s.jrn.waiters = [] ∧ s.jrn.staging.length < 16) ∧
    (∀ m s, m = { migration .quiesce .manual none with abortPending := true } → s = moving m online →
      s.working = true ∧ m.phase ≠ .commitWait ∧ m.abortPending = true ∧ s.engineInFlight = false ∧ m.target = none) ∧
    (∀ m s, m = { migration .copy .manual (some 47) with abortPending := true } → s = moving m { online with map := targeted } →
      s.working = true ∧ s.engineInFlight = false ∧ s.frame? 47 = some (record .target (some 0) 2) ∧
      s.map.pool = [] ++ [48] ∧ ∀ f ∈ [48], 2 < wearIn s.map.frames f) := by
  refine ⟨?_, ?_, ?_, ?_, ?_⟩
  · rintro m s rfl rfl
    decide +kernel
  · rintro op m s rfl rfl rfl
    exact ⟨⟨by decide +kernel, by decide +kernel, by decide +kernel⟩, by decide +kernel⟩
  · rintro op m s rfl rfl rfl
    exact ⟨⟨by decide +kernel, by decide +kernel, by decide +kernel⟩, by decide +kernel⟩
  · rintro m s rfl rfl
    decide +kernel
  · rintro m s rfl rfl
    decide +kernel

/-- A record at the head of the queue: with the ring's head at its last slot, with the ring one slot below its trigger, and
with one slot free before the tail; a creator with one record waiting. -/
theorem witness_RecordsJoinAndAreIssued :
    (∀ s, s = { staged [⟨.mapController, .fenceSet 1, none⟩] online with
        jrn := { (staged [⟨.mapController, .fenceSet 1, none⟩] online).jrn with head := 2047, tail := 2000 } } →
      s.jrn.staging = [⟨.mapController, .fenceSet 1, none⟩] ∧ s.jrn.writing = false ∧ s.jrn.full = false ∧
      s.jrn.checkpoint = none ∧ s.working = true ∧ (0 + 2048 - s.jrn.tail) % 2048 < 1536 ∧ 0 ≠ s.jrn.tail) ∧
    (∀ s, s = { staged [⟨.mapController, .fenceSet 1, none⟩] online with
        jrn := { (staged [⟨.mapController, .fenceSet 1, none⟩] online).jrn with head := 1535, tail := 0 } } →
      s.running = true ∧ s.jrn.checkpoint = none ∧ 1536 ≤ (1536 + 2048 - s.jrn.tail) % 2048 ∧
      s.jrn.descriptor = some ⟨.a, 1#32, 1#32, 0, true⟩ ∧ ({ s.jrn with head := 2047 }.head + 1) % 2048 = s.jrn.tail) ∧
    (∀ s, s = { online with jrn := { online.jrn with waiters := [⟨.drain 0, [.poisonClear 3]⟩] } } →
      s.jrn.waiters = [⟨.drain 0, [.poisonClear 3]⟩] ∧ s.jrn.staging.length < 16 ∧ s.unit.state ≠ .failed) := by
  refine ⟨?_, ?_, ?_⟩ <;> (rintro s rfl; decide +kernel)

/-- A record write in flight for each kind of head record: POISON_SET of a drain in POISON_WAIT, of one in LOSING and of a
late line, one record of it awaited or two; SHUTDOWN in DRAIN_LOCK under the warning and with it deasserted, and in CLOSING
with and without restart pending. -/
theorem witness_RecordOutcomesMakeRecordsDurable :
    (∀ op r s, op = operation .journal .journal writing 100 →
      r = (⟨.mapController, .fenceSet 1, some 4#32⟩ : StagedRecord) → s = flying op (staged [r] online) →
      s.Writing op .journal ∧ s.jrn.staging = [r] ∧
      (staged [⟨.unitControl, .opened, some 4#32⟩] s).jrn.staging = [⟨.unitControl, .opened, some 4#32⟩] ∧
      (staged [⟨.engine, .moveCommit 0 47 45 .spare 0#64, some 4#32⟩] s).jrn.staging =
        [⟨.engine, .moveCommit 0 47 45 .spare 0#64, some 4#32⟩]) ∧
    (∀ op r s, op = operation .journal .journal writing 100 → r = (⟨.drain 0, .poisonSet 5, some 4#32⟩ : StagedRecord) →
      s = flying op (staged [r] (draining (slot 5 1#64) (drain 5 1#64 false .poisonWait) online)) →
      s.Writing op .journal ∧ s.jrn.staging = [r] ∧ s.drain? 0 = some (drain 5 1#64 false .poisonWait)) ∧
    (∀ op r s, op = operation .journal .journal writing 100 → r = (⟨.drain 0, .poisonSet 5, some 4#32⟩ : StagedRecord) →
      s = flying op (staged [r] (draining (slot 5 0#64) (drain 5 1#64 false .losing) online)) →
      s.Writing op .journal ∧ s.drain? 0 = some (drain 5 1#64 false .losing) ∧
      s.slot? 5 = some { slot 5 0#64 with draining := true } ∧ ∀ e ∈ s.host.entries, e.standing ≠ .reading true) ∧
    (∀ op r m s, op = operation .journal .journal writing 100 →
      r = (⟨.lateCopy 3, .poisonSet 3, some 4#32⟩ : StagedRecord) →
      m = { migration .commitWait .manual (some 47) with lateMask := 8#64, lateAwaited := [3], lateSettled := 8#64 } →
      s = flying op (staged [r] (moving m online)) →
      s.Writing op .journal ∧ s.mig.current = some m ∧ m.lateSettled.getLsbD 3 = true ∧ 3 = m.logical * 64 + 3 ∧
      3 ∉ m.lateAwaited.erase 3 ∧ 3 ∈ { m with lateAwaited := [3, 3] }.lateAwaited.erase 3) ∧
    (∀ op r s, op = operation .journal .journal writing 100 → r = (⟨.unitControl, .shutdown, some 4#32⟩ : StagedRecord) →
      s = flying op (staged [r] (locked .shutdown)) →
      s.Writing op .journal ∧ s.jrn.staging = [r] ∧ s.unit.state = .drainLock ∧ s.unit.holdUp = true ∧
      s.jrn.checkpoint = none) ∧
    (∀ op r s, op = operation .journal .journal writing 100 → r = (⟨.unitControl, .shutdown, some 4#32⟩ : StagedRecord) →
      s = flying op (staged [r] { locked .shutdown with unit := { (locked .shutdown).unit with holdUp := false } }) →
      s.Writing op .journal ∧ s.unit.state = .drainLock ∧ s.unit.holdUp = false ∧ s.map.loaded = true ∧ s.jrn.waiters = []) ∧
    (∀ op r s, op = operation .journal .journal writing 100 → r = (⟨.unitControl, .shutdown, some 4#32⟩ : StagedRecord) →
      s = flying op (staged [r] (closing .shutdown)) →
      s.Writing op .journal ∧ s.unit.state = .closing ∧ s.unit.restartPending = false ∧
      { s.unit with restartPending := true }.holdUp = false) := by
  refine ⟨?_, ?_, ?_, ?_, ?_, ?_, ?_⟩
  case refine_4 =>
    rintro op r m s rfl rfl rfl rfl
    exact ⟨⟨by decide +kernel, by decide +kernel, by decide +kernel⟩, by decide +kernel⟩
  all_goals
    rintro op r s rfl rfl rfl
    exact ⟨⟨by decide +kernel, by decide +kernel, by decide +kernel⟩, by decide +kernel⟩

/-- A checkpoint in STARTING with a TARGET frame, a POISON_CLEAR and a SPARE_RETIRE not issued; the last image line but one, the last,
and the header in flight, an abandoned write, and the header of the closing checkpoint. -/
theorem witness_CheckpointsAreFixedWrittenAndCommitted :
    (∀ s, s = checkpointing (checkpoint .starting 0)
        { staged [⟨.drain 0, .poisonClear 3, none⟩, ⟨.engine, .spareRetire 48, none⟩] online with
          map := { tables with frames := tables.frames.modify 47 fun x => { x with role := .target, owner := some 0 } } } →
      s.jrn.checkpoint = some (checkpoint .starting 0) ∧ s.jrn.writing = false ∧ s.unit.state = .online ∧
      s.frame? 47 = some (record .target (some 0) 2) ∧ s.entry? 0 = some ⟨45, 8#64, false, false⟩ ∧ 3 / 64 = 0 ∧
      JournalRecord.poisonClear 3 ∈ s.jrn.unissued ∧ s.frame? 48 = some (record .spare none 5) ∧
      JournalRecord.spareRetire 48 ∈ s.jrn.unissued ∧ JournalRecord.spareRetire 46 ∉ s.jrn.unissued) ∧
    (∀ op s, op = operation .checkpoint .checkpoint writing 500 →
      s = flying op (checkpointing (checkpoint .image 318) online) →
      s.Writing op .checkpoint ∧ s.jrn.checkpoint = some (checkpoint .image 318) ∧
      (checkpoint .image 318).clean = false ∧ 318 + 1 < imageLines s.nP ∧ 319 + 1 = imageLines s.nP ∧
      (checkpoint .header 320).phase = .header) ∧
    (∀ op s, op = operation .checkpoint .orphan writing 500 → s = flying op online →
      s.Writing op .orphan ∧ s.jrn.checkpoint = none) ∧
    (∀ op c s, op = operation .checkpoint .checkpoint writing 64 → c = { checkpoint .header 320 with clean := true } →
      s = flying op (checkpointing c (closing .checkpoint)) →
      s.Writing op .checkpoint ∧ s.jrn.checkpoint = some c ∧ c.phase = .header ∧ c.clean = true ∧ s.unit.state = .closing ∧
      s.unit.restartPending = false ∧ { s.unit with restartPending := true }.holdUp = false ∧ s.jrn.waiters = [] ∧
      s.jrn.staging.length < 16) := by
  refine ⟨?_, ?_, ?_, ?_⟩
  · rintro s rfl
    decide +kernel
  · rintro op s rfl rfl
    exact ⟨⟨by decide +kernel, by decide +kernel, by decide +kernel⟩, by decide +kernel⟩
  · rintro op s rfl rfl
    exact ⟨⟨by decide +kernel, by decide +kernel, by decide +kernel⟩, rfl⟩
  · rintro op c s rfl rfl rfl
    exact ⟨⟨by decide +kernel, by decide +kernel, by decide +kernel⟩, by decide +kernel⟩

theorem witness_SequenceStagesFollowTheEmptying :
    ((locked .emptying).unit.state = .drainLock ∧ (locked .emptying).unit.stage = some .emptying ∧
      (locked .emptying).emptied = true) ∧
    ((closing .emptying).unit.state = .closing ∧ (closing .emptying).unit.stage = some .emptying ∧
      (closing .emptying).emptied = true) ∧
    ((closing .checkpoint).unit.stage = some .checkpoint ∧ (closing .checkpoint).jrn.checkpoint = none ∧
      (closing .checkpoint).jrn.descriptor = some ⟨.a, 1#32, 1#32, 0, true⟩) := by decide +kernel

/-- FORMAT at its first read, of a valid record with the highest format count and of one out of range, ending in each way; at
each of its writes: the wipes of slots 0, 2,046 and 2,047, the last image line but one and the last, and the four after them. -/
theorem witness_FormatMakesItsOperationsInOrder :
    (∀ g ∈ [{ geometry with formatCount := 4294967295 }, { geometry with spares := 15 }],
      ∃ data, Config.metaFormat.read data = .geometry g true) ∧
    (∀ op s, op = operation .journal .unitControl .read 0 → s = flying op (formatting .oldRecord) →
      s.Reading op .unitControl ∧ s.unit.format = some (formatWork .oldRecord) ∧ s.unit.state = .formatting ∧
      s.map.loaded = false ∧ s.map.frames = [] ∧
      (∀ d, (∃ w health media, s.ReadLeaves op w (some d) health media) ∧
        ∃ w health media, s.ReadLeaves op w none health media)) ∧
    (∀ step op s, op = operation .journal .unitControl writing 0 → s = flying op (formatting step) →
      s.Writing op .unitControl ∧ s.unit.format = some (formatWork step) ∧ s.unit.state = .formatting ∧
      s.map.loaded = false ∧ s.map.frames = [] ∧ s.jrn = JournalController.empty ∧
      ∀ step' ∈ [FormatStep.wipeSlot 0, .wipeSlot 2046, .wipeSlot 2047, .imageLine 318, .imageLine 319, .headerA, .headerB,
        .newRecord], (formatWork step').step = step') ∧
    318 + 1 < imageLines (strapsNP (formatting .headerA).unit.sizeStraps) ∧
    319 + 1 = imageLines (strapsNP (formatting .headerA).unit.sizeStraps) := by
  refine ⟨fun g hg => ?_, ?_, ?_, by decide +kernel, by decide +kernel⟩
  · have h : (MetaLine.geometry g true).written = true := by revert g; decide +kernel
    exact ⟨_, (read_written h).1⟩
  · rintro op s rfl rfl
    refine ⟨⟨by decide +kernel, by decide +kernel, by decide +kernel⟩, rfl, rfl, rfl, rfl, fun d => ?_⟩
    obtain ⟨⟨w, x, y, -, h⟩, -, far⟩ := readLeaves_each (flying (operation .journal .unitControl .read 0)
      (formatting .oldRecord)) (operation .journal .unitControl .read 0) d rfl
    exact ⟨⟨w, x, y, h⟩, far⟩
  · rintro step op s rfl rfl
    exact ⟨⟨rfl, by decide, rfl⟩, rfl, rfl, rfl, rfl, rfl, fun _ _ => rfl⟩

/-- The geometry record's read in flight, with a record in range for the straps, one for other straps and one with 15
spares, each read from stored bits that read CLEAN. -/
theorem witness_RecoveryJudgesTheGeometryRecord :
    (∀ g ∈ [geometry, ⟨2048, 16, 65536, 1⟩, ⟨1024, 15, 65536, 1⟩], ∃ data stored, errorsFrom data stored = 0 ∧
      Config.metaFormat.read data = .geometry g true) ∧
    ∀ op s, op = operation .journal .unitControl .read 0 → s = flying op (recovering recoveryStart) →
      s.Reading op .unitControl ∧ s.unit.recovery = some recoveryStart ∧ recoveryStart.step = .geometry ∧
      s.unit.state = .recovering ∧ geometryInRange geometry = true ∧ geometry.nP = strapsNP s.unit.sizeStraps ∧
      geometryInRange ⟨2048, 16, 65536, 1⟩ = true ∧ 2048 ≠ strapsNP s.unit.sizeStraps ∧
      geometryInRange ⟨1024, 15, 65536, 1⟩ = false := by
  refine ⟨fun g hg => ?_, ?_⟩
  · have h : (MetaLine.geometry g true).written = true := by revert g; decide +kernel
    exact ⟨_, _, (read_written h).2, (read_written h).1⟩
  rintro op s rfl rfl
  exact ⟨⟨by decide +kernel, by decide +kernel, by decide +kernel⟩, by decide +kernel⟩

/-- Replay that has applied record 7, of a header at position 6, with no table rows. -/
def replaying : ReplayWork :=
  { judged := 1, slot := 1, expected := 8#32, applied := some ⟨7#32, .opened, 0⟩, span := 1, tables := ⟨[], [], 1, 1, 0⟩ }

/-- The header of a checkpoint at position 6 with this image check. -/
def header (check : Word32) : CheckpointHeader := ⟨6#32, 7#32, 0, true, check⟩

/-- Recovery at a step, with area A's header of this image check and these candidates. -/
def recovery (step : RecoveryStep) (check : Word32) (candidates : List Area) : RecoveryWork :=
  { step := step, headerA := some (header check), headerB := none, candidates := candidates, sawInconsistent := false }

/-- A geometry of 64 frames, of which L is 13, so that its tables are soon examined. -/
def tiny : GeometryRecord := { geometry with nP := 64 }

/-- The items of its fresh image. -/
def freshItems : List ImageItem :=
  .fence 13 :: .uncleanCount 0 :: (freshEntries tiny).map (fun e => .entry e.frame 0#64) ++ (freshFrames tiny).map .frame

/-- The work of an image of which these items are read, at a line. -/
def imageWork (line : Nat) (items : List ImageItem) : ImageWork := { line := line, check := 0#32, items := [items] }

/-- Metadata lines read, of each way a read ends: a header with the last position slot and one past it, an image line, and a
record that ends replay. -/
theorem metaLines_readLeave :
    ∀ m ∈ [MetaLine.header ⟨1#32, 1#32, 2047, true, 0#32⟩ true, .header ⟨1#32, 1#32, 2048, true, 0#32⟩ true, .image [],
        .record 8#32 .opened true, .record 8#32 (.fenceSet 964) true, .record 9#32 .opened true],
      ∃ data, Config.metaFormat.read data = m ∧ ∀ (s : State) (op : InFlight), s.map.frames = [] →
        (∃ w health media, errorsFrom data w = 0 ∧ s.ReadLeaves op w (some data) health media) ∧
        (∃ w health media, errorsFrom data w = 4 ∧ s.ReadLeaves op w (some data) health media) ∧
        ∃ w health media, s.ReadLeaves op w none health media := by
  intro m hm
  have h : m.written = true := by revert m; decide +kernel
  exact ⟨_, (read_written h).1, fun s op hs => readLeaves_each s op _ hs⟩

/-- Each step's read in flight, whatever the step and the geometry in use; headers usable and not, one of them and both; an image before its last line
and at it, with the check equal and unequal, consistent and not, with a candidate after it and with none; a slot that ends
replay. What the reads deliver is that of `metaLines_readLeave`. -/
theorem witness_RecoveryChoosesItsAreaAndLoadsTheTables :
    (∀ g step check candidates op r s, op = operation .journal .unitControl .read 64 →
      r = recovering (recovery step check candidates) →
      s = flying op { r with unit := { r.unit with geometry := some g } } →
      s.Reading op .unitControl ∧ s.unit.recovery = some (recovery step check candidates) ∧
      s.unit.state = .recovering ∧ s.map.frames = [] ∧ s.geometryInUse = some g ∧
      (recovery step check candidates).headerOf .a = some (header check)) ∧
    (usableHeader (some (.header ⟨1#32, 1#32, 2047, true, 0#32⟩ true)) ≠ none ∧
      usableHeader (some (.header ⟨1#32, 1#32, 2048, true, 0#32⟩ true)) = none ∧
      { recoveryStart with step := .headerB }.headerA = none ∧ recoveryStart.sawInconsistent = false ∧
      candidateOrder (recovery .headerB 0#32 []).headerA none = .a :: [] ∧
      candidateOrder (some (header 0#32)) (some { header 0#32 with seq := 6#32 + 2147483647#32 }) = .b :: [.a]) ∧
    (imageWork 318 []).line + 1 < imageLines geometry.nP ∧ imageLines geometry.nP ≤ (imageWork 319 []).line + 1 ∧
    (∀ check, (header check).imageCheck = check ∧ check ≠ (header (check + 1)).imageCheck) ∧
    imageLines tiny.nP ≤ (imageWork 319 freshItems).line + 1 ∧
    consistent tiny (tablesOf ([] :: (imageWork 319 freshItems).items).reverse.flatten) = true ∧
    consistent tiny (tablesOf ([] :: (imageWork 319 []).items).reverse.flatten) = false ∧
    judgeSlot geometry replaying (validSlot (some (.record 9#32 .opened true))) = .stop := by
  refine ⟨?_, by decide +kernel, by decide +kernel, by decide +kernel, ?_, by decide +kernel⟩
  · rintro g step check candidates op r s rfl rfl rfl
    exact ⟨⟨rfl, rfl, rfl⟩, rfl, rfl, rfl, rfl, rfl⟩
  · intro check
    exact ⟨rfl, by simp only [header]; bv_omega⟩

/-- For each kind of record its conditions met, at the ends of its range, and missed; the expected record, one that
contradicts the tables, the applied record again, and a record of neither number; a slot read in replay, with one slot left
to be judged and with more, judged in each way. What the reads deliver is that of `metaLines_readLeave`. -/
theorem witness_ReplayJudgesAndAppliesRecords :
    applyRecord geometry (.fenceSet 963) replaying.tables = some { replaying.tables with fence := 963, journaledFence := 963 } ∧
    applyRecord geometry (.fenceSet 964) replaying.tables = none ∧ replaying.applied = some ⟨7#32, .opened, 0⟩ ∧
    7#32 ≠ replaying.expected ∧ 9#32 ≠ replaying.expected ∧
    (∀ t : Tables, t = ⟨tables.entries, tables.frames, 1, 1, 0⟩ →
      t.frames[45]? = some (record .mapped (some 0) 9) ∧ t.frames[47]? = some (record .spare none 2) ∧
      0 < logicalCount geometry ∧ 61631 < logicalCount geometry * 64 ∧ logicalCount geometry * 64 ≤ 61632 ∧
      (applyRecord geometry (.moveCommit 0 47 45 .retired 0#64) t).isSome = true ∧
      (applyRecord geometry (.moveCommit 0 46 45 .retired 0#64) t).isSome = false ∧
      (applyRecord geometry (.spareRetire 47) t).isSome = true ∧
      (applyRecord geometry (.spareRetire 45) t).isSome = false) ∧
    (∀ op w s, op = operation .journal .unitControl .read 700 → w = recovery (.replay replaying) 0#32 [.a] →
      s = { flying op (recovering w) with
        jrn := { JournalController.empty with descriptor := some ⟨.a, 6#32, 7#32, 0, true⟩ } } →
      s.Reading op .unitControl ∧ s.unit.recovery = some w ∧ s.unit.state = .recovering ∧ s.map.frames = [] ∧
      w.headerOf .a = some (header 0#32) ∧ s.geometryInUse = some geometry ∧
      s.jrn.descriptor = some ⟨.a, 6#32, 7#32, 0, true⟩ ∧ s.jrn.staging = [] ∧ s.jrn.waiters = [] ∧
      replaying.judged + 1 < 2048 ∧ 2048 ≤ { replaying with judged := 2047 }.judged + 1 ∧
      judgeSlot geometry replaying none = .skip ∧
      judgeSlot geometry replaying (some (8#32, .opened)) = .apply replaying.tables ∧
      judgeSlot geometry replaying (some (8#32, .fenceSet 964)) = .contradiction ∧
      judgeSlot geometry replaying (some (9#32, .opened)) = .stop) := by
  refine ⟨by decide +kernel, by decide +kernel, rfl, by decide +kernel, by decide +kernel, ?_, ?_⟩
  · rintro t rfl
    decide +kernel
  · rintro op w s rfl rfl rfl
    exact ⟨⟨by decide +kernel, by decide +kernel, by decide +kernel⟩, by decide +kernel⟩

/-- What holds of each item of a list at its number. -/
theorem of_each {α : Type} {xs : List α} {p : Nat → α → Prop} (h : ∀ i ∈ List.range xs.length, ∀ x ∈ xs[i]?, p i x) :
    ∀ i x, xs[i]? = some x → p i x :=
  fun i x hx => h i (List.mem_range.2 (List.getElem?_eq_some_iff.1 hx).1) x hx

/-- The soundness of loaded tables, from checks that can be made one by one. -/
theorem mapSound_of {s : State} (hl : s.map.loaded = true)
    (hu : s.unit.state ∈ [.online, .writeProtected, .closing, .drainLock, .safe, .failed])
    (hw : s.unit.format = none ∧ s.unit.recovery = none)
    (he : ∀ l ∈ List.range s.map.entries.length, ∀ e ∈ s.map.entries[l]?,
      (s.map.frames[e.frame]?.map fun r => (r.role, r.owner)) = some (.mapped, some l))
    (hf : ∀ f ∈ List.range s.map.frames.length, ∀ r ∈ s.map.frames[f]?,
      (r.role = .mapped → (r.owner.bind fun l => s.map.entries[l]?.map fun e => (l, e.frame)) = r.owner.map fun l => (l, f)) ∧
      (r.role = .mapped → r.owner.isSome = true) ∧ (r.role = .spare → f ∈ s.map.pool) ∧
      (r.role = .target → (s.mig.current.bind (·.target)) = some f))
    (hp : s.map.pool.Nodup ∧ ∀ f ∈ s.map.pool, (s.map.frames[f]?.map (·.role)) = some .spare)
    (hm : ∀ m ∈ s.mig.current, s.MigrationHolds m)
    (hq : ∀ q ∈ s.mig.retireQueue ++ s.mig.backQueue, q.logical < s.map.entries.length) : s.MapSound where
  unloaded h := by simp [hl] at h
  loadedIn _ := hu
  rebuilding h := by simp [hw] at h
  paired :=
    { entry := fun l e h => by
        obtain ⟨r, hr, h⟩ := Option.map_eq_some_iff.1 (of_each he l e h)
        exact ⟨r, hr, by simpa using h⟩
      owner := fun f r h hr => by
        obtain ⟨hb, ho, -⟩ := of_each hf f r h
        obtain ⟨l, hl⟩ := Option.isSome_iff_exists.1 (ho hr)
        have hb := hb hr
        rw [hl] at hb
        obtain ⟨e, hee, hb⟩ := Option.map_eq_some_iff.1 hb
        exact ⟨l, e, hl, hee, by simpa using hb⟩ }
  poolOnce := hp.1
  pool f := ⟨fun h => by
      obtain ⟨r, hr, h⟩ := Option.map_eq_some_iff.1 (hp.2 f h)
      exact ⟨r, hr, h⟩,
    fun ⟨r, hr, h⟩ => (of_each hf f r hr).2.2.1 h⟩
  target f r hr h := Option.bind_eq_some_iff.1 ((of_each hf f r hr).2.2.2 h)
  moving := hm
  queued := hq
  replay w x h := by simp [hw] at h

/-- The switch of logical frame 0 from frame 45 to frame 47, its record durable. -/
def switching : State :=
  moving { migration .commitWait .retireWear (some 47) with fate := .retired, commitDurable := true }
    { online with map := targeted }

theorem switching_holds (m : Migration) (h : m ∈ switching.mig.current) : switching.MigrationHolds m := by
  obtain rfl := Option.some.inj h
  exact ⟨⟨_, rfl, rfl⟩, fun f hf => by obtain rfl := Option.some.inj hf; exact ⟨_, rfl, rfl, rfl⟩, by decide, by decide,
    by decide⟩

/-- A pool that a frame joins; small tables that step; a switch that moves an entry, with the tables loaded before and after;
no write to a frame in flight. -/
theorem witness_SparePoolKeepsItsOrder :
    (45 ∉ online.map.pool ∧ online.map.pool.Pairwise fun a b => poolBefore online.map.frames a b = true) ∧
    (online.MapSound ∧ ∃ t, step online = .next t) ∧
    (switching.MapSound ∧ switching.PoolOrdered ∧ ∃ t, exec .migrationSwitch switching = .next t ∧ t.map.loaded = true ∧
      (switching.entry? 0).map (·.frame) = some 45 ∧ (t.entry? 0).map (·.frame) = some 47) ∧
    ∀ c f, ¬writesFrame c switching f := by
  refine ⟨by decide +kernel, ⟨?_, _, rfl⟩, ⟨?_, by unfold State.PoolOrdered; decide +kernel, _, rfl, by decide +kernel⟩, ?_⟩
  · exact mapSound_of rfl (by decide +kernel) (by decide +kernel) (by decide +kernel) (by decide +kernel) (by decide +kernel)
      (fun m h => nomatch h) (by decide +kernel)
  · exact mapSound_of rfl (by decide +kernel) (by decide +kernel) (by decide +kernel) (by decide +kernel) (by decide +kernel)
      switching_holds (by decide +kernel)
  · rintro c f ⟨op, h, -⟩
    exact nomatch h

/-- The entries 1 and 2 of a line map of two, a frame, a place of the pool, the last setting and the next identifier. -/
theorem witness_QueriesAndTableReadsChangeNothing :
    online.unit.state ≠ .reset ∧ unformatted.map.loaded = false ∧ online.map.loaded = true ∧
    online.map.entries[1]? = some ⟨46, 0#64, false, false⟩ ∧ online.map.entries.length ≤ 2 ∧
    online.map.frames[48]? = some (record .spare none 5) ∧ online.map.frames.length ≤ 49 ∧
    online.map.pool[1]? = some 48 ∧ online.map.pool.length ≤ 2 ∧ online.time.active.get 10 = some 90 := by
  decide +kernel

/-- The greatest HighWater and one more; staged sets equal, in order, out of order. -/
theorem witness_SettingCommandsStageCommitAndDiscard :
    online.unit.state = .online ∧ settingInRange 2 512 = true ∧ settingInRange 2 513 = false ∧
    online.time.staged = online.time.active ∧
    (∀ x, x = { online.time.active with lowWater := 383 } → x ≠ online.time.active ∧ x.lowWater < x.highWater) ∧
    (∀ x, x = { online.time.active with lowWater := 384 } → x ≠ online.time.active ∧ x.highWater ≤ x.lowWater) := by
  refine ⟨rfl, rfl, rfl, rfl, ?_, ?_⟩ <;> (rintro x rfl; decide +kernel)

/-- L is 963: the value 963, the value 964, a fence record held by the Map Controller. -/
theorem witness_SetFenceMovesTheActiveFence :
    online.unit.state = .online ∧ 1 ≤ 963 ∧ 963 = (0xC3#8).toNat + 256 * (3#8).toNat ∧ online.windowFrames = 963 ∧
    online.jrn.waiters = [] ∧ online.jrn.staging.length < 16 ∧
    { online with jrn := { online.jrn with waiters := [⟨.mapController, [.fenceSet 2]⟩] } }.creatorWaits .mapController =
      true ∧ (safe .prepareOff).unit.state = .safe ∧ (safe .prepareOff).map.loaded = true ∧
    { safe .drainLock with map := MapController.unloaded }.map.loaded = false := by decide +kernel

theorem witness_FlushSetsTheBarrier :
    online.unit.state = .online ∧ online.quiet = true ∧ online.buf.slots = [] := by decide +kernel

/-- Logical frame 1, a frame that is none, one queued, a full queue; a migration in each phase that matters. -/
theorem witness_MigrationCommandsQueueAndAbort :
    ((safe .prepareOff).unit.state ≠ .online ∧ online.map.entries.length ≤ 2 ∧ 1 < online.map.entries.length ∧
      online.overdueFrame 1 = false ∧ online.mig.isQueued 1 = false ∧ online.mig.isMoving 1 = false ∧
      online.mig.queued < 8) ∧
    (∀ m : MigrationEngine, m = { online.mig with backQueue := [⟨1, .manual⟩] } → m.isQueued 1 = true) ∧
    (∀ m : MigrationEngine, m = { online.mig with retireQueue := List.replicate 8 ⟨0, .retireWear⟩ } → m.isQueued 1 = false ∧ 8 ≤ m.queued) ∧
    (migration .commitWait .manual (some 47)).phase = .commitWait ∧ (migration .copy .manual (some 47)).phase ≠ .commitWait ∧
    (∀ s, s = { moving (migration .copy .manual (some 47)) online with
        media := { online.media with waiting := [⟨.copy, .engine, .read, 45 * 64⟩, ⟨.drain, .drain 1, writing, 9⟩] } } →
      s.media.arriving = [] ∧ ∀ r ∈ s.media.waiting, r.cls = .copy ↔ r.requester = .engine) := by
  refine ⟨by decide +kernel, ?_, ?_, rfl, by decide +kernel, ?_⟩ <;> (rintro x rfl; decide +kernel)

theorem witness_CheckpointNowAndClosingBegin :
    online.unit.state = .online ∧ (checkpointing (checkpoint .image 0) online).jrn.checkpoint ≠ none ∧
    online.jrn.checkpoint = none ∧ online.jrn.descriptor = some ⟨.a, 1#32, 1#32, 0, true⟩ ∧ online.host.entries = [] := by
  decide +kernel

theorem witness_ResumeAndRestartLeaveSafe :
    (online.unit.state ≠ .reset ∧ online.unit.state ≠ .safe) ∧
    ((safe .prepareOff).unit.holdUp = false ∧ (safe .prepareOff).unit.state = .safe ∧
      (safe .prepareOff).unit.safeOrigin = some .prepareOff ∧ (safe .prepareOff).jrn.waiters = [] ∧
      (safe .prepareOff).jrn.staging.length < 16) ∧ failed.unit.holdUp = false := by decide +kernel

/-- 16 and 128 spares, the ends of the range at 1,024 frames, and 15; an operation in flight in SAFE. -/
theorem witness_FormatClearsAndBegins :
    (online.unit.state ≠ .reset ∧ online.unit.state ≠ .unformatted ∧ online.unit.state ≠ .failed ∧
      online.unit.state ≠ .safe) ∧
    (unformatted.unit.holdUp = false ∧ unformatted.unit.state = .unformatted ∧ unformatted.media.arriving = []) ∧
    (128 ≤ (unformatted.unit.sizeStraps.toNat + 1) * 1024 / 8 ∧ ¬(129 ≤ (unformatted.unit.sizeStraps.toNat + 1) * 1024 / 8)) ∧
    ((safe .prepareOff).unit.safeOrigin = some .prepareOff ∧
      (flying (operation .checkpoint .orphan writing 9) (safe .prepareOff)).media.inflight ≠ []) := by decide +kernel

theorem witness_EventCommandsActOnTheirOwnBits : online.unit.state ≠ .reset := by decide +kernel

/-- A state in which nothing follows; a transfer, a code, a length and a unit state that are refused. -/
theorem witness_RefusedRequestsChangeOnlyTheResponse :
    online.quiet = true ∧ online.unit.state ≠ .reset ∧ wellFormedTransfer [] = false ∧ knownCode 0x53#8 = false ∧
    linkFields (.getSetting 1#8 []) = some (1#8, []) ∧ paramLength (.getSetting 1#8 []) = some 1 ∧
    stateChanging (.flush 1#8 []) = true ∧ linkFields (.flush 1#8 []) = some (1#8, []) ∧
    paramLength (.flush 1#8 []) = some 0 ∧ (recovering recoveryStart).quiet = true ∧
    (recovering recoveryStart).unit.state = .recovering ∧ State.reset.quiet = true ∧ State.reset.unit.state = .reset ∧
    fromLink (.flush 1#8 []) = true := by decide +kernel

/-- A response pending, and none. -/
theorem witness_ResponseReadConsumesAtItsCrc :
    online.unit.state ≠ .reset ∧ online.link.response = none ∧
    (online.withResponse 1#8 .ok []).link.response = some ⟨.ok, 1#8, []⟩ := by decide +kernel

/-- A link command with 16 parameter bytes, and one with none. -/
theorem witness_DecodedTransferIsTheEncodedCommand :
    linkWf (.format 1#8 (List.replicate 16 0xFF#8)) = true ∧
    encodeTransfer (.flush 1#8 []) = some (requestMessage 0x31#8 1#8 []) := by decide +kernel

end Sys2Proof.Tests
end

section
/-! SUPPORT. How a link request is judged and answered, in the terms the statements use. -/

namespace Sys2Proof.Machine

/-- A refusal at the start of a happening: nothing is changed but the pending response (R183). -/
theorem respond_beginHappening (tag : Byte) (status : Status) (s : State) :
    respond tag status [] (beginHappening s) = s.withResponse tag status [] := by
  cases status <;> rfl

section
variable {tag : Byte} {params : List Byte} {len : Nat} {permitted argsOk : State → Bool} {run : State → State}
  {s : State}

/-- Check 4 of R183 fails: the state does not permit the command. -/
theorem judge_badState (hr : s.unit.state ≠ .reset) (hl : params.length = len) (hp : permitted s = false) :
    judge tag params len permitted argsOk run s = respond tag .badState [] s := by
  simp [judge, hr, hl, hp]

/-- Check 5 of R183 fails: an argument is out of range. -/
theorem judge_badArg (hr : s.unit.state ≠ .reset) (hl : params.length = len) (hp : permitted s = true)
    (ha : argsOk s = false) : judge tag params len permitted argsOk run s = respond tag .badArg [] s := by
  simp [judge, hr, hl, hp, ha]

/-- A request that passes every check of R183 is executed. -/
theorem judge_run (hr : s.unit.state ≠ .reset) (hl : params.length = len) (hp : permitted s = true)
    (ha : argsOk s = true) : judge tag params len permitted argsOk run s = run s := by
  simp [judge, hr, hl, hp, ha]

end

/-! ### The parameters of SET_FENCE (Table 11.3) -/

theorem fenceValue_eq (b0 b1 choice : Byte) : paramField [b0, b1, choice] 0 2 = b0.toNat + 256 * b1.toNat := by
  simp [paramField, leValue]

theorem fenceChoice_eq (b0 b1 choice : Byte) : paramField [b0, b1, choice] 2 1 = choice.toNat := by
  simp [paramField, leValue]

/-! ### The two judgements of SET_FENCE (R17, R18, log entry 18) -/

theorem exec_setFenceVolatile (tag : Byte) (params : List Byte) (s : State) :
    exec (.setFenceVolatile tag params) s = .next (settle (setFence tag params (beginHappening s))) := rfl

theorem exec_setFencePersistent (tag : Byte) (params : List Byte) (s : State) :
    exec (.setFencePersistent tag params) s = .next (settle (setFence tag params (beginHappening s))) := rfl

theorem setFence_persistentChoice (tag b0 b1 : Byte) (s : State) :
    setFence tag [b0, b1, 1#8] s = judge tag [b0, b1, 1#8] 3 State.running
      (fun t => t.fenceOk (b0.toNat + 256 * b1.toNat)) (setPersistentFence tag (b0.toNat + 256 * b1.toNat)) s := by
  simp [setFence, persistentChoice, fenceValue_eq]

theorem setFence_otherChoice (tag b0 b1 choice : Byte) (s : State) (hc : choice ≠ 1#8) :
    setFence tag [b0, b1, choice] s = judge tag [b0, b1, choice] 3 State.mayFenceVolatile
      (fun t => choice.toNat = 0 && t.fenceOk (b0.toNat + 256 * b1.toNat))
      (setVolatileFence tag (b0.toNat + 256 * b1.toNat)) s := by
  simp [setFence, persistentChoice, fenceValue_eq, fenceChoice_eq, hc]

/-! ### When the checks of SET_FENCE pass -/

theorem mayFenceVolatile_iff (s : State) : s.mayFenceVolatile = true ↔
    s.unit.state = .online ∨ s.unit.state = .writeProtected ∨ (s.unit.state = .safe ∧ s.map.loaded = true) := by
  simp [State.mayFenceVolatile, State.running, or_assoc]

theorem running_iff (s : State) : s.running = true ↔ s.unit.state = .online ∨ s.unit.state = .writeProtected := by
  simp [State.running]

theorem fenceOk_iff (s : State) (v : Nat) : s.fenceOk v = true ↔ 1 ≤ v ∧ v ≤ s.windowFrames := by
  simp [State.fenceOk]

/-- The link answers wherever a volatile fence may be set. -/
theorem not_reset_of_mayFenceVolatile {s : State} (h : s.mayFenceVolatile = true) : s.unit.state ≠ .reset := by
  rcases (mayFenceVolatile_iff s).mp h with h | h | ⟨h, -⟩ <;> simp [h]

theorem not_reset_of_running {s : State} (h : s.running = true) : s.unit.state ≠ .reset := by
  rcases (running_iff s).mp h with h | h <;> simp [h]

/-! ### The outcomes of SET_FENCE -/

section
variable (tag : Byte) {b0 b1 choice : Byte} {s : State} {v : Nat} (hv : v = b0.toNat + 256 * b1.toNat)
include hv

theorem execVolatile_sets (hp : s.mayFenceVolatile = true) (ha : s.fenceOk v = true) :
    exec (.setFenceVolatile tag [b0, b1, 0#8]) s =
      .next (settle { s.withResponse tag .ok [] with map := { s.map with volatileFence := some v } }) := by
  subst hv
  rw [exec_setFenceVolatile, setFence_otherChoice _ _ _ _ _ (by decide), judge_run]
  exacts [rfl, not_reset_of_mayFenceVolatile hp, rfl, hp, ha]

/-- A value out of range, and a choice that is neither, are arguments refused alike (log entry 18). -/
theorem execVolatile_badArg (hc : choice ≠ 1#8) (hp : s.mayFenceVolatile = true)
    (ha : choice = 0#8 → s.fenceOk v = false) :
    exec (.setFenceVolatile tag [b0, b1, choice]) s = .next (settle (s.withResponse tag .badArg [])) := by
  subst hv
  have hargs : (decide (choice.toNat = 0) && s.fenceOk (b0.toNat + 256 * b1.toNat)) = false := by
    by_cases h0 : choice = 0#8
    · simp [ha h0]
    · have : choice.toNat ≠ 0 := fun h => h0 (BitVec.eq_of_toNat_eq h)
      simp [this]
  rw [exec_setFenceVolatile, setFence_otherChoice _ _ _ _ _ hc, judge_badArg, respond_beginHappening]
  exacts [not_reset_of_mayFenceVolatile hp, rfl, hp, hargs]

omit hv in
theorem execVolatile_badState (hc : choice ≠ 1#8) (hr : s.unit.state ≠ .reset) (hp : s.mayFenceVolatile = false) :
    exec (.setFenceVolatile tag [b0, b1, choice]) s = .next (settle (s.withResponse tag .badState [])) := by
  rw [exec_setFenceVolatile, setFence_otherChoice _ _ _ _ _ hc, judge_badState, respond_beginHappening]
  exacts [hr, rfl, hp]

theorem execPersistent_runs (hp : s.running = true) (ha : s.fenceOk v = true) :
    exec (.setFencePersistent tag [b0, b1, 1#8]) s =
      .next (settle (setPersistentFence tag v (beginHappening s))) := by
  subst hv
  rw [exec_setFencePersistent, setFence_persistentChoice, judge_run]
  exacts [not_reset_of_running hp, rfl, hp, ha]

theorem execPersistent_badArg (hp : s.running = true) (ha : s.fenceOk v = false) :
    exec (.setFencePersistent tag [b0, b1, 1#8]) s = .next (settle (s.withResponse tag .badArg [])) := by
  subst hv
  rw [exec_setFencePersistent, setFence_persistentChoice, judge_badArg, respond_beginHappening]
  exacts [not_reset_of_running hp, rfl, hp, ha]

omit hv in
theorem execPersistent_badState (hr : s.unit.state ≠ .reset) (hp : s.running = false) :
    exec (.setFencePersistent tag [b0, b1, 1#8]) s = .next (settle (s.withResponse tag .badState [])) := by
  rw [exec_setFencePersistent, setFence_persistentChoice, judge_badState, respond_beginHappening]
  exacts [hr, rfl, hp]

end

/-- While the Map Controller holds a record, a persistent fence is not taken (R122). -/
theorem setPersistentFence_busy (tag : Byte) (v : Nat) {s : State} (h : s.creatorWaits .mapController = true) :
    setPersistentFence tag v (beginHappening s) = s.withResponse tag .busy [] := by
  have hw : (beginHappening s).creatorWaits .mapController = true := h
  rw [setPersistentFence, if_pos hw, respond_beginHappening]

/-- With no creator waiting and room in the staging queue, FENCE_SET joins it at once (R18, R121). -/
theorem setPersistentFence_accepted (tag : Byte) (v : Nat) {s : State} (hw : s.jrn.waiters = [])
    (hroom : s.jrn.staging.length < 16) :
    setPersistentFence tag v (beginHappening s) = { s.withResponse tag .accepted [] with
      map := { s.map with fence := v, volatileFence := none }
      jrn := { s.jrn with staging := s.jrn.staging ++ [⟨.mapController, .fenceSet v, none⟩] } } := by
  have hfree : (beginHappening s).creatorWaits .mapController = false := by simp [State.creatorWaits, hw]
  have hjoins : ∀ x, ((beginHappening s).setMap x).joinsAtOnce = true := by
    intro x
    simp [State.joinsAtOnce, State.stagingRoom, Config.stagingPlaces, hw, hroom]
  rw [setPersistentFence, if_neg (by simp [hfree]), handOver, if_pos (hjoins _)]
  rfl

/-- Settles O50: each clause is one of the outcomes above, chosen by the checks of R183. -/
theorem setFenceMovesTheActiveFence : Obligations.SetFenceMovesTheActiveFence := by
  intro tag b0 b1 choice s v hv
  have outside : v = 0 ∨ s.windowFrames < v → s.fenceOk v = false := fun h => by
    rw [Bool.eq_false_iff, Ne, fenceOk_iff]
    omega
  have inside : 1 ≤ v → v ≤ s.windowFrames → s.fenceOk v = true := fun h1 hL => (fenceOk_iff s v).mpr ⟨h1, hL⟩
  refine ⟨fun hs => ?_, fun hs => ?_, fun hs => ?_, fun hs hl hc => ?_⟩
  · have hp := (mayFenceVolatile_iff s).mpr hs
    exact ⟨fun h1 hL => execVolatile_sets tag hv hp (inside h1 hL),
      fun h => execVolatile_badArg tag hv (by decide) hp fun _ => outside h,
      fun h0 h1 => execVolatile_badArg tag hv h1 hp fun h => absurd h h0⟩
  · have hp := (running_iff s).mpr hs
    refine ⟨fun h1 hL => ⟨fun hw => ?_, fun hw hroom => ?_⟩, fun h => execPersistent_badArg tag hv hp (outside h)⟩
    · rw [execPersistent_runs tag hv hp (inside h1 hL), setPersistentFence_busy tag v hw]
    · rw [execPersistent_runs tag hv hp (inside h1 hL), setPersistentFence_accepted tag v hw hroom]
  · exact execPersistent_badState tag (by simp [hs]) (by simp [State.running, hs])
  · exact execVolatile_badState tag hc (by simp [hs]) (by simp [State.mayFenceVolatile, State.running, hs, hl])

end Sys2Proof.Machine
end

section
/-! SUPPORT. A state with sound tables in which an entry moves outside COMMIT_WAIT, and the refutation it gives. -/

namespace Sys2Proof.Machine

/-- The write of a copy's last line, line 63 of target frame 1, in flight in place 0. -/
def lastCopyWrite : InFlight :=
  { id := ⟨0, 1#32, false⟩
    request := ⟨.copy, .engine, .write (.data zeroLine), lineAt 1 63⟩
    sent := 0#32, limit := 20000 }

/-- A migration of logical frame 0 from frame 0 to frame 1, in COPY at its last line, with the mark of a durable
MOVE_COMMIT set already. -/
def durableInCopy : Migration :=
  { newMigration ⟨0, .manual⟩ 0 with phase := .copy, target := some 1, copyIndex := 63, commitDurable := true }

/-- ONLINE with two frames, the source and the target of `durableInCopy`. -/
def copyingDurable : State :=
  { State.reset with
    unit := { State.reset.unit with
      state := .online, standing := some .inUse
      geometry := some { nP := 1024, spares := 16, retireWear := 65536, formatCount := 1 } }
    map := { MapController.unloaded with
      loaded := true
      entries := [{ frame := 0, poison := 0#64, migrationMark := true, failMark := false }]
      frames := [freshRecord .mapped (some 0), freshRecord .target (some 0)]
      fence := 1 }
    mig := { State.reset.mig with current := some durableInCopy }
    media := { MediaPort.empty with inflight := [lastCopyWrite] } }

/-- The only map entry and the only MAPPED frame name each other. -/
theorem copyingDurable_paired : Paired copyingDurable.map.entries copyingDurable.map.frames where
  entry l e h := by
    match l, h with
    | 0, h => cases h; exact ⟨_, rfl, rfl, rfl⟩
  owner f r h hrole := by
    match f, h with
    | 0, h => cases h; exact ⟨0, _, rfl, rfl, rfl⟩
    | 1, h => cases h; cases hrole

theorem copyingDurable_holds : copyingDurable.MigrationHolds durableInCopy where
  source := ⟨_, rfl, rfl⟩
  target f h := by cases h; exact ⟨_, rfl, rfl, rfl⟩
  quiesce h := nomatch h
  copy _ _ h := nomatch h
  commitWait h := nomatch h

theorem copyingDurable_mapSound : copyingDurable.MapSound where
  unloaded h := nomatch h
  loadedIn _ := by decide
  rebuilding h := by rcases h with h | h <;> cases h
  paired := copyingDurable_paired
  poolOnce := List.nodup_nil
  pool f := by
    refine ⟨fun h => absurd h List.not_mem_nil, ?_⟩
    rintro ⟨r, h, hrole⟩
    match f, h with
    | 0, h => cases h; cases hrole
    | 1, h => cases h; cases hrole
  target f r h hrole := by
    match f, h with
    | 0, h => cases h; cases hrole
    | 1, _ => exact ⟨durableInCopy, rfl, rfl⟩
  moving m h := by cases h; exact copyingDurable_holds
  queued q h := absurd h List.not_mem_nil
  replay w x h := nomatch h

/-- The end of the copy enters COMMIT_WAIT, and the switch follows in the same happening: the commit stands as durable. -/
theorem copyingDurable_switches : ∃ t, exec (.copyWriteComplete lastCopyWrite.id .stored) copyingDurable = .next t ∧
    t.map.loaded = true ∧ (t.entry? 0).map (·.frame) = some 1 :=
  ⟨_, rfl, by decide +kernel, by decide +kernel⟩

/-- Refutes O47, in its last clause: an entry moves although the migration does not stand in COMMIT_WAIT (R7, R99).
`State.MapSound` leaves open whether the commit of a migration in COPY is marked durable. In `copyingDurable`, which is sound
and which no run reaches, it is: the write that ends the copy enters COMMIT_WAIT, and the switch is made in its happening. -/
theorem not_sparePoolKeepsItsOrder : ¬ Obligations.SparePoolKeepsItsOrder := by
  rintro ⟨-, -, -, -, hcommands⟩
  obtain ⟨t, hexec, hloaded, hframe⟩ := copyingDurable_switches
  obtain ⟨d, hd, hd1⟩ := Option.map_eq_some_iff.mp hframe
  obtain ⟨-, hkept⟩ := hcommands _ _ _ copyingDurable_mapSound hexec
  obtain ⟨-, -, -, hmoved⟩ := hkept rfl hloaded
  obtain ⟨m, hm, -, hphase, -⟩ := hmoved 0 _ d rfl hd (by simp [hd1])
  cases hm
  cases hphase

end Sys2Proof.Machine
end

section
/-! SUPPORT. The bounds of the tables, block by block, and that the operations of the buffer, the ports and the journal
keep each of them. A lemma `f_keeps` follows the definition of `f`. -/

namespace Sys2Proof.Machine

-- As in the architect's tests: each thread of a parallel elaboration takes 1 GiB of the check's limit.
set_option Elab.async false

/-! ### The bounds, block by block -/

/-- The bounds of the Absorb Buffer (R21, R27). -/
structure AbsorbBuffer.Within (b : AbsorbBuffer) : Prop where
  slots : b.slots.length ≤ Config.slotCount
  slotLines : (b.slots.map (·.line)).Nodup
  drainPlaces : (b.drains.map (·.place)).Nodup

/-- The bounds of the Host Port (R45, R59). -/
structure HostPort.Within (x : HostPort) : Prop where
  tags : (x.entries.map (·.tag)).Nodup
  persists : x.persists.length ≤ Config.persistPlaces

/-- The bounds of the Media Port (R67, R70). -/
structure MediaPort.Within (m : MediaPort) : Prop where
  places : (m.inflight.map (·.id.place)).Nodup
  promoCheckpoint : m.promoCheckpoint ≤ Config.promotionLimit
  promoCopy : m.promoCopy ≤ Config.promotionLimit

/-- The bound of the migration queue (R82). -/
def MigrationEngine.Within (m : MigrationEngine) : Prop := m.queued ≤ Config.migrationQueue

/-- The bound of the staging queue (R121). -/
def JournalController.Within (j : JournalController) : Prop := j.staging.length ≤ Config.stagingPlaces

/-- The bound of the sweep count (R173). -/
def TimeBase.Within (x : TimeBase) : Prop := x.sweeps ≤ max16

theorem bounded_iff (s : State) : s.Bounded ↔
    s.buf.Within ∧ s.host.Within ∧ s.mig.Within ∧ s.jrn.Within ∧ s.media.Within ∧ s.time.Within :=
  ⟨fun h => ⟨⟨h.slots, h.slotLines, h.drainPlaces⟩, ⟨h.tags, h.persists⟩, h.migrations, h.staging,
      ⟨h.mediaPlaces, h.promoCheckpoint, h.promoCopy⟩, h.sweeps⟩,
    fun ⟨hbuf, hhost, hmig, hjrn, hmedia, htime⟩ =>
      ⟨hbuf.slots, hbuf.slotLines, hbuf.drainPlaces, hhost.tags, hhost.persists, hmig, hjrn, hmedia.places,
        hmedia.promoCheckpoint, hmedia.promoCopy, htime⟩⟩

theorem healthBounded_iff (h : HealthMonitor) : h.bounded = true ↔
    h.correctedReads ≤ max32 ∧ h.uncorrectableReads ≤ max32 ∧ h.programFails ≤ max32 ∧ h.drains ≤ max32 ∧
    h.lostWrites ≤ max32 ∧ h.migrationsRetire ≤ max32 ∧ h.migrationsLevel ≤ max32 ∧ h.migrationsManual ≤ max32 ∧
    h.migrationsAborted ≤ max32 := by
  simp [HealthMonitor.bounded, healthCounters]

/-- A saturating count stays at or below its highest value (R178). -/
theorem satRaise_le {highest n : Nat} (h : n ≤ highest) : satRaise highest n ≤ highest := by
  unfold satRaise
  split <;> omega

/-- From s to t, no block leaves its bounds: each bound that held in s holds in t. -/
structure KeepsBounds (s t : State) : Prop where
  buf : s.buf.Within → t.buf.Within
  host : s.host.Within → t.host.Within
  mig : s.mig.Within → t.mig.Within
  jrn : s.jrn.Within → t.jrn.Within
  media : s.media.Within → t.media.Within
  time : s.time.Within → t.time.Within
  health : s.health.bounded = true → t.health.bounded = true

theorem KeepsBounds.refl (s : State) : KeepsBounds s s := ⟨id, id, id, id, id, id, id⟩

theorem KeepsBounds.trans {s t u : State} (h : KeepsBounds s t) (k : KeepsBounds t u) : KeepsBounds s u :=
  ⟨k.buf ∘ h.buf, k.host ∘ h.host, k.mig ∘ h.mig, k.jrn ∘ h.jrn, k.media ∘ h.media, k.time ∘ h.time,
    k.health ∘ h.health⟩

/-- The one state an outcome `next` names. -/
theorem KeepsBounds.of_next {s t v : State} (h : (Host.Outcome.next v : Host.Outcome State Fault Refusal) = .next t)
    (hv : KeepsBounds s v) : KeepsBounds s t := by
  cases h
  exact hv

theorem KeepsBounds.bounded {s t : State} (h : KeepsBounds s t) (hs : s.Bounded) : t.Bounded := by
  obtain ⟨hbuf, hhost, hmig, hjrn, hmedia, htime⟩ := (bounded_iff s).mp hs
  exact (bounded_iff t).mpr ⟨h.buf hbuf, h.host hhost, h.mig hmig, h.jrn hjrn, h.media hmedia, h.time htime⟩

/-- What every step of a fold keeps, the fold keeps. -/
theorem foldl_keeps {α : Type} {s t : State} (f : State → α → State) (l : List α)
    (hf : ∀ u, ∀ a ∈ l, KeepsBounds s u → KeepsBounds s (f u a)) (h : KeepsBounds s t) : KeepsBounds s (l.foldl f t) :=
  List.foldlRecOn l f h fun u hu a ha => hf u a ha hu

variable {s t u : State}

/-! ### Block updates -/

theorem setUnit_keeps {x : UnitControl} (h : KeepsBounds s t) : KeepsBounds s (t.setUnit x) :=
  ⟨h.buf, h.host, h.mig, h.jrn, h.media, h.time, h.health⟩

theorem setMap_keeps {x : MapController} (h : KeepsBounds s t) : KeepsBounds s (t.setMap x) :=
  ⟨h.buf, h.host, h.mig, h.jrn, h.media, h.time, h.health⟩

theorem setLink_keeps {x : ManagementLink} (h : KeepsBounds s t) : KeepsBounds s (t.setLink x) :=
  ⟨h.buf, h.host, h.mig, h.jrn, h.media, h.time, h.health⟩

theorem setOut_keeps {x : Outputs} (h : KeepsBounds s t) : KeepsBounds s (t.setOut x) :=
  ⟨h.buf, h.host, h.mig, h.jrn, h.media, h.time, h.health⟩

theorem setPending_keeps {x : List Instr} (h : KeepsBounds s t) : KeepsBounds s (t.setPending x) :=
  ⟨h.buf, h.host, h.mig, h.jrn, h.media, h.time, h.health⟩

theorem setBuf_keeps {x : AbsorbBuffer} (hx : t.buf.Within → x.Within) (h : KeepsBounds s t) :
    KeepsBounds s (t.setBuf x) := ⟨hx ∘ h.buf, h.host, h.mig, h.jrn, h.media, h.time, h.health⟩

theorem setHost_keeps {x : HostPort} (hx : t.host.Within → x.Within) (h : KeepsBounds s t) :
    KeepsBounds s (t.setHost x) := ⟨h.buf, hx ∘ h.host, h.mig, h.jrn, h.media, h.time, h.health⟩

theorem setMig_keeps {x : MigrationEngine} (hx : t.mig.Within → x.Within) (h : KeepsBounds s t) :
    KeepsBounds s (t.setMig x) := ⟨h.buf, h.host, hx ∘ h.mig, h.jrn, h.media, h.time, h.health⟩

theorem setJrn_keeps {x : JournalController} (hx : t.jrn.Within → x.Within) (h : KeepsBounds s t) :
    KeepsBounds s (t.setJrn x) := ⟨h.buf, h.host, h.mig, hx ∘ h.jrn, h.media, h.time, h.health⟩

theorem setMedia_keeps {x : MediaPort} (hx : t.media.Within → x.Within) (h : KeepsBounds s t) :
    KeepsBounds s (t.setMedia x) := ⟨h.buf, h.host, h.mig, h.jrn, hx ∘ h.media, h.time, h.health⟩

theorem setTime_keeps {x : TimeBase} (hx : t.time.Within → x.Within) (h : KeepsBounds s t) :
    KeepsBounds s (t.setTime x) := ⟨h.buf, h.host, h.mig, h.jrn, h.media, hx ∘ h.time, h.health⟩

theorem setHealth_keeps {x : HealthMonitor} (hx : t.health.bounded = true → x.bounded = true) (h : KeepsBounds s t) :
    KeepsBounds s (t.setHealth x) := ⟨h.buf, h.host, h.mig, h.jrn, h.media, h.time, hx ∘ h.health⟩

/-! ### Flags, outputs, responses -/

theorem raise_keeps {e : Event} (h : KeepsBounds s t) : KeepsBounds s (raise e t) := setLink_keeps h

theorem enterState_keeps {st : UnitState} (h : KeepsBounds s t) : KeepsBounds s (enterState st t) :=
  raise_keeps (setUnit_keeps h)

theorem sendHost_keeps {tag : BitVec 5} {code : HostCode} {data : LineData} (h : KeepsBounds s t) :
    KeepsBounds s (sendHost tag code data t) := setOut_keeps h

theorem respond_keeps {tag : Byte} {status : Status} {results : List Byte} (h : KeepsBounds s t) :
    KeepsBounds s (respond tag status results t) := setLink_keeps h

/-! ### Health counters (R178) -/

theorem committedCount_bounded {r : Reason} {h : HealthMonitor} (hb : h.bounded = true) :
    (committedCount r h).bounded = true := by
  cases r <;> simp_all [committedCount, healthBounded_iff, satRaise_le]

/-- An update of the Health Monitor keeps its bounds where it keeps them of every monitor, as the raise of one saturating
counter does. -/
theorem bumpHealth_keeps {f : HealthMonitor → HealthMonitor} (h : KeepsBounds s t)
    (hf : ∀ x, x.bounded = true → (f x).bounded = true := by simp +contextual [healthBounded_iff, satRaise_le]) :
    KeepsBounds s (bumpHealth f t) := setHealth_keeps (hf _) h

/-! ### Map -/

theorem updEntry_keeps {l : Nat} {f : MapEntry → MapEntry} (h : KeepsBounds s t) : KeepsBounds s (updEntry l f t) :=
  setMap_keeps h

theorem updFrame_keeps {p : Nat} {f : FrameRecord → FrameRecord} (h : KeepsBounds s t) :
    KeepsBounds s (updFrame p f t) := setMap_keeps h

theorem updMig_keeps {f : Migration → Migration} (h : KeepsBounds s t) : KeepsBounds s (updMig f t) :=
  setMig_keeps id h

theorem setPoison_keeps {line : Nat} {v : Bool} (h : KeepsBounds s t) : KeepsBounds s (setPoison line v t) := by
  unfold setPoison
  split
  · exact updMig_keeps (updEntry_keeps h)
  · exact updEntry_keeps h

theorem setMigrationMark_keeps {l : Nat} {v : Bool} (h : KeepsBounds s t) : KeepsBounds s (setMigrationMark l v t) :=
  updEntry_keeps h

theorem setFailMark_keeps {l : Nat} {v : Bool} (h : KeepsBounds s t) : KeepsBounds s (setFailMark l v t) :=
  updEntry_keeps h

theorem joinPool_keeps {f : Nat} (h : KeepsBounds s t) : KeepsBounds s (joinPool f t) :=
  setMap_keeps (updFrame_keeps h)

theorem retireFrame_keeps {f : Nat} (h : KeepsBounds s t) : KeepsBounds s (retireFrame f t) := updFrame_keeps h

theorem takeTarget_keeps {f : Nat} {rest : List Nat} {l : Nat} (h : KeepsBounds s t) :
    KeepsBounds s (takeTarget f rest l t) := updFrame_keeps (setMap_keeps h)

/-! ### Media Port -/

theorem setOperations_within {m : MediaPort} {f : InFlight → InFlight} (hf : ∀ op ∈ m.inflight, (f op).id.place = op.id.place)
    (hm : m.Within) : MediaPort.Within { m with inflight := m.inflight.map f } := by
  have same : (m.inflight.map f).map (·.id.place) = m.inflight.map (·.id.place) := by
    rw [List.map_map]
    exact List.map_congr_left hf
  exact { hm with places := same ▸ hm.places }

theorem filterOperations_within {m : MediaPort} {p : InFlight → Bool} (hm : m.Within) :
    MediaPort.Within { m with inflight := m.inflight.filter p } :=
  { hm with places := hm.places.sublist (List.filter_sublist.map _) }

theorem request_keeps {r : MediaRequest} (h : KeepsBounds s t) : KeepsBounds s (request r t) := by
  rcases request_cases r t with ⟨-, he⟩ | ⟨-, he⟩ <;> rw [he]
  · exact h
  · exact setMedia_keeps (fun hm => { hm with }) h

theorem joinWaiting_keeps (h : KeepsBounds s t) : KeepsBounds s (joinWaiting t) :=
  setMedia_keeps (fun hm => { hm with }) h

theorem promoAfterGrant_le {c g : MediaClass} {waiting : List MediaRequest} {count : Nat} :
    promoAfterGrant c g waiting count ≤ Config.promotionLimit := by
  unfold promoAfterGrant
  split
  · exact Nat.zero_le _
  · split
    · exact Nat.min_le_left _ _
    · exact Nat.zero_le _

theorem freeMediaPlace_free {m : MediaPort} {p : Fin 8} (h : freeMediaPlace m = some p) :
    p ∉ m.inflight.map (·.id.place) := by
  have := List.find?_some h
  simpa using this

theorem grantIn_within {r : MediaRequest} {p : Fin 8} {now : Word32} {limit : Nat} {m : MediaPort}
    (hp : freeMediaPlace m = some p) (hm : m.Within) : (grantIn r p now limit m).1.Within where
  places := by
    change ((m.inflight ++ [_]).map fun op : InFlight => op.id.place).Nodup
    rw [List.map_append]
    exact hm.places.append (List.nodup_singleton _) (by simpa using freeMediaPlace_free hp)
  promoCheckpoint := promoAfterGrant_le
  promoCopy := promoAfterGrant_le

theorem grantOne_keeps (h : KeepsBounds s t) (hu : grantOne t = some u) : KeepsBounds s u := by
  rcases grantOne_cases t with hn | ⟨p, r, hp, -, -, -, he⟩
  · simp [hn] at hu
  · obtain rfl := Option.some.inj (he.symm.trans hu)
    exact setOut_keeps (setMedia_keeps (grantIn_within hp) h)

theorem grantUpTo_keeps {n : Nat} (h : KeepsBounds s t) : KeepsBounds s (grantUpTo n t) := by
  induction n generalizing t with
  | zero => exact h
  | succ n ih =>
    unfold grantUpTo
    split
    · exact ih (grantOne_keeps h ‹_›)
    · exact h

theorem grantAll_keeps (h : KeepsBounds s t) : KeepsBounds s (grantAll t) := grantUpTo_keeps (joinWaiting_keeps h)

theorem freePlaceOf_keeps {id : AttemptId} (h : KeepsBounds s t) : KeepsBounds s (freePlaceOf id t) :=
  setMedia_keeps filterOperations_within h

theorem recordError_keeps {op : InFlight} {event : MediaEvent} {bits : Nat} (h : KeepsBounds s t) :
    KeepsBounds s (recordError op event bits t) := setMedia_keeps (fun hm => { hm with }) h

theorem retryAttempt_keeps {op : InFlight} (h : KeepsBounds s t) : KeepsBounds s (retryAttempt op t) := by
  refine setOut_keeps (setMedia_keeps (setOperations_within fun o _ => ?_) (recordError_keeps h))
  split
  · rename_i heq
    simp [heq]
  · rfl

theorem withdraw_keeps {p : MediaRequest → Bool} (h : KeepsBounds s t) : KeepsBounds s (withdraw p t) := by
  refine setMedia_keeps (fun hm => ⟨hm.places, ?_, ?_⟩) h
  · dsimp only
    split
    · exact hm.promoCheckpoint
    · exact Nat.zero_le _
  · dsimp only
    split
    · exact hm.promoCopy
    · exact Nat.zero_le _

theorem endWithoutResult_keeps (h : KeepsBounds s t) : KeepsBounds s (endWithoutResult t) :=
  setMedia_keeps (fun _ => ⟨List.nodup_nil, Nat.zero_le _, Nat.zero_le _⟩) h

theorem orphanCheckpoint_keeps (h : KeepsBounds s t) : KeepsBounds s (orphanCheckpoint t) := by
  refine setMedia_keeps (setOperations_within fun op _ => ?_) (withdraw_keeps h)
  split <;> rfl

theorem abandonUnitWork_keeps (h : KeepsBounds s t) : KeepsBounds s (abandonUnitWork t) :=
  setMedia_keeps filterOperations_within (withdraw_keeps h)

/-! ### Absorb Buffer -/

theorem updSlot_keeps {line : Nat} {f : Slot → Slot} (hf : ∀ sl, (f sl).line = sl.line) (h : KeepsBounds s t) :
    KeepsBounds s (updSlot line f t) := by
  refine setBuf_keeps (fun hb => { hb with slots := by simpa using hb.slots, slotLines := ?_ }) h
  have same : (t.buf.slots.map fun sl => if sl.line = line then f sl else sl).map (·.line) = t.buf.slots.map (·.line) := by
    rw [List.map_map]
    exact List.map_congr_left fun sl _ => by dsimp only [Function.comp]; split <;> simp [hf]
  simpa only [same] using hb.slotLines

theorem updDrain_keeps {p : Fin 4} {f : Drain → Drain} (hf : ∀ d, (f d).place = d.place) (h : KeepsBounds s t) :
    KeepsBounds s (updDrain p f t) := by
  refine setBuf_keeps (fun hb => { hb with drainPlaces := ?_ }) h
  have same : (t.buf.drains.map fun d => if d.place = p then f d else d).map (·.place) = t.buf.drains.map (·.place) := by
    rw [List.map_map]
    exact List.map_congr_left fun d _ => by dsimp only [Function.comp]; split <;> simp [hf]
  simpa only [same] using hb.drainPlaces

theorem endDrain_keeps {p : Fin 4} (h : KeepsBounds s t) : KeepsBounds s (endDrain p t) :=
  setBuf_keeps (fun hb => { hb with drainPlaces := hb.drainPlaces.sublist (List.filter_sublist.map _) }) h

theorem evalPressure_keeps (h : KeepsBounds s t) : KeepsBounds s (evalPressure t) :=
  setBuf_keeps (fun hb => { hb with }) h

/-- A line with no slot is the line of none. -/
theorem slot?_eq_none {line : Nat} : t.slot? line = none ↔ line ∉ t.buf.slots.map (·.line) := by
  simp [State.slot?]

theorem takeSlot_keeps {line : Nat} {mask : Flags64} {data : LineData} {seq : Word32} (hnew : t.slot? line = none)
    (hroom : t.hasFreeSlot = true) (h : KeepsBounds s t) : KeepsBounds s (takeSlot line mask data seq t) := by
  have hroom : t.buf.slots.length < Config.slotCount := by simpa [State.hasFreeSlot] using hroom
  have hnew := slot?_eq_none.mp hnew
  refine evalPressure_keeps (setBuf_keeps (fun hb => { hb with slots := ?_, slotLines := ?_ }) h)
  · simpa using hroom
  · rw [List.map_append]
    exact hb.slotLines.append (List.nodup_singleton _) (by simpa [newSlot] using hnew)

theorem mergedSlot_line (mask : Flags64) (data : LineData) (tick seq : Word32) (sl : Slot) :
    (mergedSlot mask data tick seq sl).line = sl.line := by
  simp only [mergedSlot]

theorem mergeWrite_keeps {line : Nat} {mask : Flags64} {data : LineData} {seq : Word32} (h : KeepsBounds s t) :
    KeepsBounds s (mergeWrite line mask data seq t) :=
  updSlot_keeps (mergedSlot_line _ _ _ _) h

theorem filterSlots_within {b : AbsorbBuffer} {p : Slot → Bool} (hb : b.Within) :
    AbsorbBuffer.Within { b with slots := b.slots.filter p } where
  slots := (List.length_filter_le _ _).trans hb.slots
  slotLines := hb.slotLines.sublist (List.filter_sublist.map _)
  drainPlaces := hb.drainPlaces

theorem freeSlot_keeps {line : Nat} (h : KeepsBounds s t) : KeepsBounds s (freeSlot line t) :=
  evalPressure_keeps (setBuf_keeps (fun hb => filterSlots_within hb) h)

theorem freeDrainPlace_free {b : AbsorbBuffer} {p : Fin 4} (h : freeDrainPlace b = some p) :
    p ∉ b.drains.map (·.place) := by
  have := List.find?_some h
  simpa using this

theorem issueDrain_keeps {p : Fin 4} {sl : Slot} (hp : freeDrainPlace t.buf = some p) (h : KeepsBounds s t) :
    KeepsBounds s (issueDrain p sl t) := by
  refine request_keeps (setBuf_keeps (fun hb => { hb with drainPlaces := ?_ }) (updSlot_keeps (fun _ => rfl) h))
  rw [List.map_append]
  exact hb.drainPlaces.append (List.nodup_singleton _) (by simpa [issuedDrain, updSlot] using freeDrainPlace_free hp)

theorem finishSlot_keeps {line : Nat} (h : KeepsBounds s t) : KeepsBounds s (finishSlot line t) := by
  rcases finishSlot_cases line t with ⟨-, he⟩ | ⟨sl, -, -, he⟩ | ⟨sl, mark, -, -, he⟩ <;> rw [he]
  · exact h
  · exact freeSlot_keeps h
  · exact updSlot_keeps (fun _ => rfl) h

/-! ### Host Port -/

theorem setEntries_within {x : HostPort} {f : TagEntry → TagEntry} (hf : ∀ e ∈ x.entries, (f e).tag = e.tag)
    (hx : x.Within) : HostPort.Within { x with entries := x.entries.map f } := by
  have same : (x.entries.map f).map (·.tag) = x.entries.map (·.tag) := by
    rw [List.map_map]
    exact List.map_congr_left hf
  exact { hx with tags := same ▸ hx.tags }

theorem addEntry_keeps {e : TagEntry} (hfree : t.occupied e.tag = false) (h : KeepsBounds s t) :
    KeepsBounds s (addEntry e t) := by
  refine setHost_keeps (fun hx => { hx with tags := ?_ }) h
  rw [List.map_append]
  exact hx.tags.append (List.nodup_singleton _) (by simpa [State.occupied] using hfree)

theorem removeEntry_keeps {tag : BitVec 5} (h : KeepsBounds s t) : KeepsBounds s (removeEntry tag t) :=
  setHost_keeps (fun hx => { hx with tags := hx.tags.sublist (List.filter_sublist.map _) }) h

theorem setStanding_keeps {tag : BitVec 5} {st : TagStanding} (h : KeepsBounds s t) :
    KeepsBounds s (setStanding tag st t) :=
  setHost_keeps (setEntries_within fun e _ => by split <;> rfl) h

theorem answer_keeps {tag : BitVec 5} {code : HostCode} {data : LineData} (h : KeepsBounds s t) :
    KeepsBounds s (answer tag code data t) := sendHost_keeps (removeEntry_keeps h)

theorem releaseHeld_keeps (h : KeepsBounds s t) : KeepsBounds s (releaseHeld t) :=
  foldl_keeps _ _ (fun _ _ _ hu => answer_keeps hu) h

theorem answerRead_keeps {tag : BitVec 5} {code : HostCode} {data : LineData} (h : KeepsBounds s t) :
    KeepsBounds s (answerRead tag code data t) := releaseHeld_keeps (answer_keeps h)

theorem serveRead_keeps {tag : BitVec 5} {line : Nat} (h : KeepsBounds s t) : KeepsBounds s (serveRead tag line t) := by
  unfold serveRead
  split
  · exact answerRead_keeps h
  split
  · exact setStanding_keeps h
  split
  · exact answerRead_keeps h
  · exact request_keeps (setStanding_keeps h)

theorem decideAfterLoss_keeps {tag : BitVec 5} {line : Nat} (h : KeepsBounds s t) :
    KeepsBounds s (decideAfterLoss tag line t) := by
  unfold decideAfterLoss
  split <;> exact answerRead_keeps h

theorem endLossWaits_keeps {line : Nat} (h : KeepsBounds s t) : KeepsBounds s (endLossWaits line t) :=
  foldl_keeps _ _ (fun _ _ _ hu => decideAfterLoss_keeps hu) h

theorem returnRead_keeps {tag : BitVec 5} {line : Nat} {o : ReadOutcome LineData} (h : KeepsBounds s t) :
    KeepsBounds s (returnRead tag line o t) := by
  unfold returnRead
  split
  · exact answerRead_keeps h
  split
  · exact setStanding_keeps h
  split
  · exact answerRead_keeps h
  split <;> exact answerRead_keeps h

theorem finishWrite_keeps {tag : BitVec 5} {line : Nat} (h : KeepsBounds s t) :
    KeepsBounds s (finishWrite tag line t) := by
  rcases finishWrite_cases tag line t with ⟨-, he⟩ | ⟨-, he⟩ <;> rw [he]
  · exact answer_keeps h
  · exact setHost_keeps (setEntries_within fun e _ => by split <;> rfl) h

/-- A write that can be accepted merges into its line's slot or finds a FREE one (R56). -/
theorem acceptWrite_keeps {e : TagEntry} (hcan : t.canAccept e.line = true) (h : KeepsBounds s t) :
    KeepsBounds s (acceptWrite e t) := by
  have hcount : KeepsBounds s (t.setHost { t.host with acceptSeq := t.host.acceptSeq + 1 }) :=
    setHost_keeps (fun hx => { hx with }) h
  unfold acceptWrite
  dsimp only
  split
  · exact finishWrite_keeps (mergeWrite_keeps hcount)
  · rename_i hslot
    have hnew : t.slot? e.line = none := Option.not_isSome_iff_eq_none.mp hslot
    have hroom : t.hasFreeSlot = true := by simp_all [State.canAccept]
    exact finishWrite_keeps (takeSlot_keeps hnew hroom hcount)

/-- What a write needs before it is taken: an empty mask, or its acceptance (R55, R56). -/
theorem takeRequest_keeps {e : TagEntry} (hwrite : e.kind = .write → e.mask ≠ 0#64 → t.canAccept e.line = true)
    (h : KeepsBounds s t) : KeepsBounds s (takeRequest e t) := by
  unfold takeRequest
  split
  · exact serveRead_keeps h
  · split
    · exact finishWrite_keeps h
    · exact acceptWrite_keeps (hwrite ‹_› ‹_›) h
  · exact h

theorem canAccept_of_takable {e : TagEntry} (ht : t.takable e = true) (hk : e.kind = .write) (hm : e.mask ≠ 0#64) :
    t.canAccept e.line = true := by
  simpa [State.takable, hk, hm] using ht

theorem takeLine_keeps {line n : Nat} (h : KeepsBounds s t) : KeepsBounds s (takeLine line n t) := by
  induction n generalizing t with
  | zero => exact h
  | succ n ih =>
    unfold takeLine
    split
    · split
      · exact ih (takeRequest_keeps (canAccept_of_takable ‹_›) h)
      · exact h
    · exact h

theorem takePersist_keeps {tag : BitVec 5} (hroom : t.persistRoom = true) (h : KeepsBounds s t) :
    KeepsBounds s (takePersist tag t) := by
  have hroom : t.host.persists.length < Config.persistPlaces := by simpa [State.persistRoom] using hroom
  unfold takePersist
  dsimp only
  split
  · exact answer_keeps h
  · refine setHost_keeps (fun hx => { hx with persists := ?_ }) (setStanding_keeps h)
    simpa [setStanding] using hroom

theorem waitQueueTake?_keeps (h : waitQueueTake? s = some t) : KeepsBounds s t := by
  unfold waitQueueTake? at h
  split at h
  · split at h
    · cases h
      exact takeLine_keeps (.refl s)
    · cases h
  · cases h

theorem persistTake?_keeps (h : persistTake? s = some t) : KeepsBounds s t := by
  unfold persistTake? at h
  split at h
  · cases h
  · split at h
    · split at h
      · rename_i hroom
        cases h
        exact takePersist_keeps (by simp_all) (.refl s)
      · cases h
    · cases h

theorem persistDone?_keeps (h : persistDone? s = some t) : KeepsBounds s t := by
  unfold persistDone? at h
  split at h
  · cases h
  · split at h
    · rename_i p rest hp
      split at h
      · cases h
        refine answer_keeps (setHost_keeps (fun hx => { hx with persists := ?_ }) (.refl s))
        have := hx.persists
        simp only [hp, List.length_cons] at this
        exact (Nat.le_succ _).trans this
      · cases h
    · cases h

theorem flushDone?_keeps (h : flushDone? s = some t) : KeepsBounds s t := by
  unfold flushDone? at h
  split at h
  · cases h
  · split at h
    · split at h
      · cases h
        exact raise_keeps (setBuf_keeps (fun hb => { hb with }) (.refl s))
      · cases h
    · cases h

theorem arriveRead_keeps {tag : BitVec 5} {line : Nat} (hfree : t.occupied tag = false) (h : KeepsBounds s t) :
    KeepsBounds s (arriveRead tag line t) := by
  unfold arriveRead
  dsimp only
  split
  · exact addEntry_keeps hfree h
  · exact serveRead_keeps (addEntry_keeps hfree h)

theorem arriveWrite_keeps {tag : BitVec 5} {line : Nat} {mask : Flags64} {data : LineData}
    (hfree : t.occupied tag = false) (h : KeepsBounds s t) : KeepsBounds s (arriveWrite tag line mask data t) := by
  unfold arriveWrite
  dsimp only
  split
  · exact addEntry_keeps hfree h
  split
  · exact takeRequest_keeps (canAccept_of_takable ‹_›) (addEntry_keeps hfree h)
  · exact addEntry_keeps hfree h

theorem arrivePersist_keeps {tag : BitVec 5} {line : Nat} (hfree : t.occupied tag = false) (h : KeepsBounds s t) :
    KeepsBounds s (arrivePersist tag line t) := by
  unfold arrivePersist
  dsimp only
  split
  · rename_i hroom
    have hroom : t.persistRoom = true := by simp_all
    exact takePersist_keeps hroom (addEntry_keeps hfree h)
  · exact addEntry_keeps hfree h

/-- A request that meets an arrival check leaves every table as it is; one that passes finds its tag free (R46, R47). -/
theorem arrivalCheck_keeps {tag : BitVec 5} (h : KeepsBounds s t) (hu : arrivalCheck tag t = some u) :
    KeepsBounds s u := by
  unfold arrivalCheck at hu
  split at hu
  · cases hu; exact h
  split at hu
  · cases hu; exact raise_keeps h
  split at hu
  · cases hu; exact sendHost_keeps h
  · cases hu

theorem free_of_arrivalCheck {tag : BitVec 5} (h : arrivalCheck tag t = none) : t.occupied tag = false := by
  unfold arrivalCheck at h
  split at h
  · cases h
  split at h
  · cases h
  · simpa using ‹¬t.occupied tag = true›

theorem hostReadArrives_keeps {tag : BitVec 5} {line : Nat} (h : KeepsBounds s t) :
    KeepsBounds s (hostReadArrives tag line t) := by
  unfold hostReadArrives
  split
  · exact arrivalCheck_keeps h ‹_›
  · split
    · exact sendHost_keeps h
    · exact arriveRead_keeps (free_of_arrivalCheck ‹_›) h

theorem hostWriteArrives_keeps {tag : BitVec 5} {line : Nat} {mask : Flags64} {data : LineData} (h : KeepsBounds s t) :
    KeepsBounds s (hostWriteArrives tag line mask data t) := by
  unfold hostWriteArrives
  split
  · exact arrivalCheck_keeps h ‹_›
  · split
    · exact sendHost_keeps h
    split
    · exact arriveWrite_keeps (free_of_arrivalCheck ‹_›) h
    · exact sendHost_keeps h

theorem hostPersistArrives_keeps {tag : BitVec 5} {line : Nat} (h : KeepsBounds s t) :
    KeepsBounds s (hostPersistArrives tag line t) := by
  unfold hostPersistArrives
  split
  · exact arrivalCheck_keeps h ‹_›
  · exact arrivePersist_keeps (free_of_arrivalCheck ‹_›) h

theorem hostUnknownArrives_keeps (h : KeepsBounds s t) : KeepsBounds s (hostUnknownArrives t) := by
  unfold hostUnknownArrives
  split
  · exact h
  · exact raise_keeps h

/-- Answering every entry of a list leaves the entries whose tags are not in it. -/
theorem foldl_answer_entries (code : HostCode) (l : List TagEntry) (s : State) :
    (l.foldl (fun u e => answer e.tag code zeroLine u) s).host.entries =
      s.host.entries.filter fun e => decide (e.tag ∉ l.map (·.tag)) := by
  induction l generalizing s with
  | nil => simp
  | cons a l ih =>
    rw [List.foldl_cons, ih, (answer_spec _ _ _ _).1, List.filter_filter]
    exact List.filter_congr fun e _ => by simp [Bool.and_comm]

/-- With every waiting write refused, what still waits is no write, and is taken without a slot (R48). -/
theorem refuseWaiting_keeps (h : KeepsBounds s t) : KeepsBounds s (refuseWaiting t) := by
  refine foldl_keeps _ _ (fun v e he hv => takeRequest_keeps (fun hk => ?_) hv)
    (foldl_keeps _ _ (fun _ _ _ hu => answer_keeps hu) h)
  obtain ⟨hleft, hwaits⟩ := List.mem_filter.mp he
  rw [foldl_answer_entries] at hleft
  obtain ⟨hmem, hout⟩ := List.mem_filter.mp hleft
  have hwrite : e.waitingWrite = true := by simp [TagEntry.waitingWrite, hk, hwaits]
  exact absurd (List.mem_map_of_mem (List.mem_filter.mpr ⟨hmem, hwrite⟩)) (of_decide_eq_true hout)

theorem answerAllFailed_keeps (h : KeepsBounds s t) : KeepsBounds s (answerAllFailed t) :=
  setHost_keeps (fun _ => ⟨List.nodup_nil, Nat.zero_le _⟩) (foldl_keeps _ _ (fun _ _ _ hu => sendHost_keeps hu) h)

/-! ### Journal Controller -/

theorem stageRecord_keeps {c : Creator} {r : JournalRecord} (hroom : t.stagingRoom = true) (h : KeepsBounds s t) :
    KeepsBounds s (stageRecord c r t) := by
  have hroom : t.jrn.staging.length < Config.stagingPlaces := by simpa [State.stagingRoom] using hroom
  exact setJrn_keeps (fun _ => by simpa [JournalController.Within] using hroom) h

theorem waitWith_keeps {c : Creator} {r : JournalRecord} (h : KeepsBounds s t) : KeepsBounds s (waitWith c r t) := by
  unfold waitWith
  split
  · exact setJrn_keeps id h
  · dsimp only
    split
    · exact raise_keeps (setJrn_keeps id h)
    · exact setJrn_keeps id h

theorem handOver_keeps {c : Creator} {r : JournalRecord} (h : KeepsBounds s t) : KeepsBounds s (handOver c r t) := by
  unfold handOver
  split
  · rename_i hjoins
    exact stageRecord_keeps (by simp_all [State.joinsAtOnce]) h
  · exact waitWith_keeps h

theorem onJoined_keeps {c : Creator} {r : JournalRecord} (h : KeepsBounds s t) : KeepsBounds s (onJoined c r t) := by
  unfold onJoined
  split
  · exact endDrain_keeps h
  · exact h

theorem creatorJoin?_keeps (h : creatorJoin? s = some t) : KeepsBounds s t := by
  unfold creatorJoin? at h
  split at h
  · rename_i hroom
    have hroom : s.stagingRoom = true := by simp_all
    split at h
    · cases h
    · split at h
      · cases h
        exact setJrn_keeps id (.refl s)
      · cases h
        exact onJoined_keeps (stageRecord_keeps hroom (setJrn_keeps id (.refl s)))
  · cases h

theorem startCheckpoint_keeps {clean : Bool} (h : KeepsBounds s t) : KeepsBounds s (startCheckpoint clean t) :=
  setJrn_keeps id h

theorem triggerCheckpoint_keeps (h : KeepsBounds s t) : KeepsBounds s (triggerCheckpoint t) := by
  rcases triggerCheckpoint_cases t with ⟨-, he⟩ | ⟨-, he⟩ <;> rw [he]
  · exact startCheckpoint_keeps h
  · exact h

theorem ringTrigger_keeps (h : KeepsBounds s t) : KeepsBounds s (ringTrigger t) := by
  unfold ringTrigger
  split
  · exact triggerCheckpoint_keeps h
  · exact h

theorem imageFix?_keeps (h : imageFix? s = some t) : KeepsBounds s t := by
  unfold imageFix? at h
  split at h
  · split at h
    · cases h
      exact request_keeps (setJrn_keeps id (.refl s))
    · cases h
  · cases h

theorem issueRecord_keeps {r : StagedRecord} {rest : List StagedRecord} (hhead : t.jrn.staging = r :: rest)
    (h : KeepsBounds s t) : KeepsBounds s (issueRecord r rest t) :=
  ringTrigger_keeps (request_keeps (setJrn_keeps (fun hj => by
    simpa [JournalController.Within, hhead] using hj) h))

theorem recordIssue?_keeps (h : recordIssue? s = some t) : KeepsBounds s t := by
  unfold recordIssue? at h
  split at h
  · split at h
    · cases h
      exact issueRecord_keeps ‹_› (.refl s)
    · cases h
  · cases h

theorem abandonCheckpoint_keeps (h : KeepsBounds s t) : KeepsBounds s (abandonCheckpoint t) := by
  unfold abandonCheckpoint
  dsimp only
  split
  · exact orphanCheckpoint_keeps (setJrn_keeps id h)
  · exact setJrn_keeps id h

end Sys2Proof.Machine
end

section
/-! SUPPORT. That the operations of the engine, of Unit Control, of recovery and of the time base keep the bounds of every
block. -/

namespace Sys2Proof.Machine

set_option Elab.async false

variable {s t u : State}

/-! ### The migration queue, retire causes and the wear sweep -/

theorem setLastResult_keeps {l : Nat} {reason : Reason} {result : MigResult} (h : KeepsBounds s t) :
    KeepsBounds s (setLastResult l reason result t) := setMig_keeps id h

/-- A request joins the retire class where a place of the queue is left for it, within the bound of the start (R82). -/
theorem joinRetire_keeps {r : MigRequest} (hroom : s.mig.Within → t.mig.queued < Config.migrationQueue)
    (h : KeepsBounds s t) : KeepsBounds s (joinRetire r t) := by
  refine { setMig_keeps (x := t.mig) id h with mig := fun hs => ?_ }
  have := hroom hs
  simp only [joinRetire, State.setMig_mig, MigrationEngine.Within, MigrationEngine.queued, List.length_append,
    List.length_singleton] at this ⊢
  omega

theorem joinBack_keeps {r : MigRequest} (hroom : t.mig.room = true) (h : KeepsBounds s t) :
    KeepsBounds s (joinBack r t) := by
  have hroom : t.mig.queued < Config.migrationQueue := of_decide_eq_true hroom
  refine setMig_keeps (fun _ => ?_) h
  simp only [MigrationEngine.Within, MigrationEngine.queued, List.length_append, List.length_singleton] at hroom ⊢
  omega

/-- An eviction leaves one request less in the queue (R83). -/
theorem evictNewest_queued (h : t.mig.backQueue ≠ []) : (evictNewest t).mig.queued + 1 = t.mig.queued := by
  have hlen := List.length_pos_iff.mpr h
  unfold evictNewest
  rw [List.getLast?_eq_some_getLast h]
  dsimp only
  split <;> simp [setLastResult, MigrationEngine.queued] <;> omega

theorem evictNewest_keeps (h : KeepsBounds s t) : KeepsBounds s (evictNewest t) := by
  have hless : t.mig.Within → MigrationEngine.Within { t.mig with backQueue := t.mig.backQueue.dropLast } := fun hm => by
    simp only [MigrationEngine.Within, MigrationEngine.queued, List.length_dropLast] at hm ⊢
    omega
  unfold evictNewest
  split
  · dsimp only
    split
    · exact raise_keeps (setLastResult_keeps (setMig_keeps hless h))
    · exact setLastResult_keeps (setMig_keeps hless h)
  · exact h

theorem upgradeCurrent_keeps {reason : Reason} (h : KeepsBounds s t) : KeepsBounds s (upgradeCurrent reason t) :=
  updMig_keeps h

/-- A request that the back class names leaves it when it joins the retire class, and one is evicted where the queue is
full: no row of Table 5.2 overfills the queue (R83). -/
theorem handleRetire_keeps {l : Nat} {reason : Reason} (h : KeepsBounds s t) :
    KeepsBounds s (handleRetire l reason t) := by
  unfold handleRetire
  dsimp only
  split
  · exact h
  split
  · split
    · exact upgradeCurrent_keeps h
    · exact h
  split
  · exact h
  split
  · rename_i hback
    obtain ⟨r, hr, hrl⟩ := List.any_eq_true.mp hback
    have hless : (t.mig.backQueue.filter fun x => x.logical ≠ l).length < t.mig.backQueue.length :=
      List.length_filter_lt_length_iff_exists.mpr ⟨r, hr, by simpa using hrl⟩
    have hmoved : t.mig.Within →
        (t.setMig { t.mig with backQueue := t.mig.backQueue.filter fun x => x.logical ≠ l }).mig.queued <
          Config.migrationQueue := fun hm => by
      simp only [State.setMig_mig, MigrationEngine.Within, MigrationEngine.queued] at hm ⊢
      omega
    exact joinRetire_keeps (hmoved ∘ h.mig) (setMig_keeps (fun hm => (hmoved hm).le) h)
  split
  · rename_i hroom
    exact joinRetire_keeps (fun _ => of_decide_eq_true hroom) h
  split
  · exact h
  · rename_i hback
    have hone := evictNewest_queued (t := t) (by simpa using hback)
    refine joinRetire_keeps (fun hs => ?_) (evictNewest_keeps h)
    have := h.mig hs
    simp only [MigrationEngine.Within] at this
    omega

theorem retireRequest_keeps {l : Nat} {reason : Reason} (h : KeepsBounds s t) :
    KeepsBounds s (retireRequest l reason t) := by
  unfold retireRequest
  split
  · exact handleRetire_keeps h
  · exact h

theorem retireCause_keeps {f : Nat} {reason : Reason} (h : KeepsBounds s t) :
    KeepsBounds s (retireCause f reason t) := by
  unfold retireCause
  split
  · split
    · dsimp only
      split
      · exact retireRequest_keeps (updFrame_keeps h)
      · exact updFrame_keeps h
    · exact h
  · exact h

theorem checkWear_keeps {f : Nat} (h : KeepsBounds s t) : KeepsBounds s (checkWear f t) := by
  unfold checkWear
  split
  · split
    · exact retireCause_keeps h
    · exact h
  · exact h

theorem raiseCorrected_keeps {f : Nat} (h : KeepsBounds s t) : KeepsBounds s (raiseCorrected f t) := by
  unfold raiseCorrected
  split
  · split
    · dsimp only
      split
      · exact retireCause_keeps (updFrame_keeps h)
      · exact updFrame_keeps h
    · exact h
  · exact h

theorem readOutcome_keeps {α : Type} {op : InFlight} {o : ReadOutcome α} (h : KeepsBounds s t) :
    KeepsBounds s (readOutcome op o t) := by
  unfold readOutcome
  cases o with
  | clean d => exact freePlaceOf_keeps h
  | corrected k d =>
    exact raiseCorrected_keeps (recordError_keeps
      (bumpHealth_keeps (freePlaceOf_keeps h)))
  | uncorrectable =>
    exact recordError_keeps (bumpHealth_keeps (freePlaceOf_keeps h))

theorem writeOutcome_keeps {op : InFlight} {report : WriteReport} (h : KeepsBounds s t) :
    KeepsBounds s (writeOutcome op report t) := by
  unfold writeOutcome
  cases report with
  | stored => exact updFrame_keeps (freePlaceOf_keeps h)
  | programFail =>
    exact recordError_keeps
      (bumpHealth_keeps (updFrame_keeps (freePlaceOf_keeps h)))

theorem offerFrame_keeps {f : Nat} (h : KeepsBounds s t) : KeepsBounds s (offerFrame t f) := by
  unfold offerFrame
  split
  · split
    · split
      · exact retireRequest_keeps h
      · exact h
    · exact h
  · exact h

theorem requeue_keeps (h : KeepsBounds s t) : KeepsBounds s (requeue t) :=
  foldl_keeps _ _ (fun _ _ _ hu => offerFrame_keeps hu) h

theorem setLevelCheck_keeps {outcome : LevelOutcome} {figures : Option LevelFigures} (h : KeepsBounds s t) :
    KeepsBounds s (setLevelCheck outcome figures t) := setMig_keeps id h

theorem compareLevel_keeps {hot : FrameRecord × Nat} {head : Nat} (h : KeepsBounds s t) :
    KeepsBounds s (compareLevel hot head t) := by
  unfold compareLevel
  dsimp only
  split
  · split
    · rename_i hjoins
      exact setLevelCheck_keeps (joinBack_keeps (by simp_all [State.levelJoins]) h)
    · exact setLevelCheck_keeps h
  · exact setLevelCheck_keeps h

theorem levelCheck_keeps (h : KeepsBounds s t) : KeepsBounds s (levelCheck t) := by
  unfold levelCheck
  split
  · exact setLevelCheck_keeps h
  split
  · exact setLevelCheck_keeps h
  split
  · exact compareLevel_keeps h
  · exact setLevelCheck_keeps h

/-! ### Migration Engine -/

theorem setLatch_keeps (h : KeepsBounds s t) : KeepsBounds s (setLatch t) := by
  unfold setLatch
  dsimp only
  split
  · exact refuseWaiting_keeps (enterState_keeps (setMap_keeps h))
  · exact setMap_keeps h

theorem startCopy_keeps {i : Nat} (h : KeepsBounds s t) : KeepsBounds s (startCopy i t) := by
  unfold startCopy
  split
  · exact request_keeps h
  · exact h

theorem engineIdle_keeps (h : KeepsBounds s t) : KeepsBounds s (engineIdle t) := setMig_keeps id h

theorem spareExhausted_keeps {m : Migration} (h : KeepsBounds s t) : KeepsBounds s (spareExhausted m t) :=
  engineIdle_keeps (setLastResult_keeps (setMigrationMark_keeps (raise_keeps (setLatch_keeps
    (setFailMark_keeps (updFrame_keeps h))))))

theorem noSpare_keeps {m : Migration} (h : KeepsBounds s t) : KeepsBounds s (noSpare m t) :=
  engineIdle_keeps (setLastResult_keeps (raise_keeps
    (bumpHealth_keeps (setMigrationMark_keeps h))))

theorem askTarget_keeps {m : Migration} (h : KeepsBounds s t) : KeepsBounds s (askTarget m t) := by
  unfold askTarget
  split
  · exact startCopy_keeps (setMig_keeps id (takeTarget_keeps h))
  split
  · exact spareExhausted_keeps h
  · exact noSpare_keeps h

/-- The queue without its head is one request shorter (R82). -/
theorem takeHead_within {m n : MigrationEngine} {r : MigRequest} (h : m.takeHead = some (r, n)) (hm : m.Within) :
    n.Within := by
  simp only [MigrationEngine.Within, MigrationEngine.queued] at hm ⊢
  unfold MigrationEngine.takeHead at h
  split at h <;> cases h <;> simp_all <;> omega

theorem migrationTake?_keeps (h : migrationTake? s = some t) : KeepsBounds s t := by
  unfold migrationTake? at h
  split at h
  · split at h
    · rename_i hhead
      cases h
      have hless := takeHead_within hhead
      exact setMigrationMark_keeps (setMig_keeps hless (.refl s))
    · cases h
  · cases h

theorem quiesceEnd?_keeps (h : quiesceEnd? s = some t) : KeepsBounds s t := by
  unfold quiesceEnd? at h
  split at h
  · split at h
    · cases h
      exact askTarget_keeps (.refl s)
    · cases h
  · cases h

theorem endCopy_keeps {m : Migration} (h : KeepsBounds s t) : KeepsBounds s (endCopy m t) :=
  handOver_keeps (updMig_keeps h)

theorem copyLineDone_keeps {m : Migration} (h : KeepsBounds s t) : KeepsBounds s (copyLineDone m t) := by
  unfold copyLineDone
  split
  · exact startCopy_keeps (updMig_keeps h)
  · exact endCopy_keeps h

theorem failTarget_keeps {m : Migration} (h : KeepsBounds s t) : KeepsBounds s (failTarget m t) := by
  unfold failTarget
  split
  · exact handOver_keeps (updMig_keeps (retireFrame_keeps h))
  · exact h

theorem returnTarget_keeps {m : Migration} (h : KeepsBounds s t) : KeepsBounds s (returnTarget m t) := by
  unfold returnTarget
  split
  · split
    · exact joinPool_keeps h
    · exact h
  · exact h

theorem completeAbort_keeps {m : Migration} (h : KeepsBounds s t) : KeepsBounds s (completeAbort m t) := by
  refine engineIdle_keeps (setLastResult_keeps (raise_keeps
    (bumpHealth_keeps ?_)))
  split
  · exact setMigrationMark_keeps (returnTarget_keeps h)
  · exact setFailMark_keeps (setMigrationMark_keeps (returnTarget_keeps h))

theorem takeAbort_keeps (h : KeepsBounds s t) : KeepsBounds s (takeAbort t) := withdraw_keeps (updMig_keeps h)

theorem abortComplete?_keeps (h : abortComplete? s = some t) : KeepsBounds s t := by
  unfold abortComplete? at h
  split at h
  · split at h
    · cases h
      exact completeAbort_keeps (.refl s)
    · cases h
  · cases h

theorem copyReadOutcome_keeps {m : Migration} {o : ReadOutcome LineData} (h : KeepsBounds s t) :
    KeepsBounds s (copyReadOutcome m o t) := by
  unfold copyReadOutcome
  split
  · split
    · exact retireCause_keeps (completeAbort_keeps h)
    · exact h
  · split
    · exact request_keeps h
    · exact retireCause_keeps (request_keeps (updMig_keeps h))

theorem copyWriteOutcome_keeps {m : Migration} {report : WriteReport} (h : KeepsBounds s t) :
    KeepsBounds s (copyWriteOutcome m report t) := by
  unfold copyWriteOutcome
  split
  · split
    · exact h
    · exact copyLineDone_keeps h
  · dsimp only
    split
    · exact failTarget_keeps h
    · exact askTarget_keeps (failTarget_keeps h)

theorem markLate_keeps {line : Nat} (h : KeepsBounds s t) : KeepsBounds s (markLate line t) := by
  unfold markLate
  split
  · exact updMig_keeps h
  · exact h

theorem lateCopyStart?_keeps (h : lateCopyStart? s = some t) : KeepsBounds s t := by
  unfold lateCopyStart? at h
  split at h
  · split at h
    · split at h
      · cases h
        exact startCopy_keeps (updMig_keeps (.refl s))
      · cases h
    · cases h
  · cases h

theorem lateRecord_keeps {m : Migration} {i : Nat} (h : KeepsBounds s t) : KeepsBounds s (lateRecord m i t) :=
  handOver_keeps (updMig_keeps h)

theorem lateReadOutcome_keeps {m : Migration} {c : LateCopy} {o : ReadOutcome LineData} (h : KeepsBounds s t) :
    KeepsBounds s (lateReadOutcome m c o t) := by
  unfold lateReadOutcome
  split
  · exact request_keeps h
  · exact retireCause_keeps (lateRecord_keeps (request_keeps (updMig_keeps h)))

theorem lateWriteFail_keeps {m : Migration} {c : LateCopy} (h : KeepsBounds s t) :
    KeepsBounds s (lateWriteFail m c t) := by
  unfold lateWriteFail
  split
  · exact updMig_keeps (lateRecord_keeps h)
  · exact updMig_keeps h

theorem lateRecordDurable_keeps {i : Nat} (h : KeepsBounds s t) : KeepsBounds s (lateRecordDurable i t) := by
  unfold lateRecordDurable
  split
  · exact updMig_keeps (setPoison_keeps h)
  · exact h

theorem releaseSource_keeps {m : Migration} (h : KeepsBounds s t) : KeepsBounds s (releaseSource m t) := by
  unfold releaseSource
  dsimp only
  split
  · exact joinPool_keeps (updFrame_keeps h)
  · exact retireFrame_keeps (updFrame_keeps h)

theorem switchTables_keeps {m : Migration} (h : KeepsBounds s t) : KeepsBounds s (switchTables m t) :=
  releaseSource_keeps (updFrame_keeps (updEntry_keeps h))

theorem checkNewFrame_keeps {f : Nat} (h : KeepsBounds s t) : KeepsBounds s (checkNewFrame f t) := by
  unfold checkNewFrame
  split
  · split
    · exact retireCause_keeps h
    split
    · exact retireCause_keeps h
    · exact h
  · exact h

theorem switchMigration_keeps {m : Migration} (h : KeepsBounds s t) : KeepsBounds s (switchMigration m t) :=
  checkNewFrame_keeps (engineIdle_keeps (setLastResult_keeps
    (bumpHealth_keeps (raise_keeps (switchTables_keeps h)) fun _ => committedCount_bounded)))

theorem migrationSwitch?_keeps (h : migrationSwitch? s = some t) : KeepsBounds s t := by
  unfold migrationSwitch? at h
  split at h
  · split at h
    · cases h
      exact switchMigration_keeps (.refl s)
    · cases h
  · cases h

/-! ### Unit Control -/

theorem enterFailed_keeps {cause : FailCause} (h : KeepsBounds s t) : KeepsBounds s (enterFailed cause t) := by
  unfold enterFailed
  split
  · exact h
  · exact enterState_keeps (setUnit_keeps (setJrn_keeps id (answerAllFailed_keeps (endWithoutResult_keeps h))))

/-- The hard reset empties every table and clears every count (R144). -/
theorem hardReset_keeps : KeepsBounds s (hardReset t) where
  buf _ := ⟨Nat.zero_le _, List.nodup_nil, List.nodup_nil⟩
  host _ := ⟨List.nodup_nil, Nat.zero_le _⟩
  mig _ := Nat.zero_le _
  jrn _ := Nat.zero_le _
  media _ := ⟨List.nodup_nil, Nat.zero_le _, Nat.zero_le _⟩
  time _ := Nat.zero_le _
  health _ := (by decide : HealthMonitor.zero.bounded = true)

theorem abandonToSafe_keeps (h : KeepsBounds s t) : KeepsBounds s (abandonToSafe t) :=
  enterState_keeps (setUnit_keeps (setMap_keeps (abandonUnitWork_keeps h)))

theorem startRecovery_keeps (h : KeepsBounds s t) : KeepsBounds s (startRecovery t) := by
  unfold startRecovery
  dsimp only
  split
  · exact abandonToSafe_keeps (enterState_keeps (setUnit_keeps h))
  · exact request_keeps (enterState_keeps (setUnit_keeps h))

theorem volatileReset_keeps : KeepsBounds s (volatileReset t) := startRecovery_keeps (setLink_keeps hardReset_keeps)

theorem leaveSafe_keeps (h : KeepsBounds s t) : KeepsBounds s (leaveSafe t) :=
  enterState_keeps (setUnit_keeps (handOver_keeps h))

theorem leaveSafeDrainLock_keeps (h : KeepsBounds s t) : KeepsBounds s (leaveSafeDrainLock t) := by
  unfold leaveSafeDrainLock
  split
  · exact leaveSafe_keeps h
  · exact startRecovery_keeps h

theorem enterSafe_keeps {origin : SafeOrigin} (h : KeepsBounds s t) : KeepsBounds s (enterSafe origin t) := by
  unfold enterSafe
  dsimp only
  split
  · exact leaveSafeDrainLock_keeps (enterState_keeps (setUnit_keeps (abandonCheckpoint_keeps h)))
  · exact enterState_keeps (setUnit_keeps (abandonCheckpoint_keeps h))

theorem closingEnds_keeps (h : KeepsBounds s t) : KeepsBounds s (closingEnds t) := by
  unfold closingEnds
  split
  · exact volatileReset_keeps
  · exact enterSafe_keeps h

theorem shutdownDurable_keeps (h : KeepsBounds s t) : KeepsBounds s (shutdownDurable t) := by
  unfold shutdownDurable
  split
  · exact enterSafe_keeps h
  split
  · exact closingEnds_keeps h
  · exact h

theorem emptyQueue_keeps (h : KeepsBounds s t) : KeepsBounds s (emptyQueue t) :=
  setMig_keeps (fun _ => Nat.zero_le _) h

theorem abortForDrainLock_keeps (h : KeepsBounds s t) : KeepsBounds s (abortForDrainLock t) := by
  unfold abortForDrainLock
  split
  · split
    · exact takeAbort_keeps h
    · exact h
  · exact h

theorem enterDrainLock_keeps (h : KeepsBounds s t) : KeepsBounds s (enterDrainLock t) :=
  refuseWaiting_keeps (setMap_keeps (abandonCheckpoint_keeps (abortForDrainLock_keeps (emptyQueue_keeps
    (enterState_keeps (setUnit_keeps h))))))

theorem enterClosing_keeps {restart : Bool} (h : KeepsBounds s t) : KeepsBounds s (enterClosing restart t) :=
  refuseWaiting_keeps (setMap_keeps (emptyQueue_keeps (enterState_keeps (setUnit_keeps h))))

theorem toShutdown_keeps (h : KeepsBounds s t) : KeepsBounds s (toShutdown t) := handOver_keeps (setUnit_keeps h)

theorem drainLockEmptyingEnd?_keeps (h : drainLockEmptyingEnd? s = some t) : KeepsBounds s t := by
  unfold drainLockEmptyingEnd? at h
  split at h <;> cases h
  exact toShutdown_keeps (.refl s)

theorem closingEmptyingEnd?_keeps (h : closingEmptyingEnd? s = some t) : KeepsBounds s t := by
  unfold closingEmptyingEnd? at h
  split at h <;> cases h
  exact setUnit_keeps (.refl s)

theorem closingCheckpointStart?_keeps (h : closingCheckpointStart? s = some t) : KeepsBounds s t := by
  unfold closingCheckpointStart? at h
  split at h <;> cases h
  exact startCheckpoint_keeps (.refl s)

theorem commitCheckpoint_keeps {c : Checkpoint} (h : KeepsBounds s t) : KeepsBounds s (commitCheckpoint c t) := by
  have hset : KeepsBounds s ((t.setJrn { t.jrn with
      descriptor := some { area := c.area, seq := c.seq, posSeq := c.posSeq, posSlot := c.posSlot, clean := c.clean }
      tail := c.posSlot, full := decide (c.slotsTaken = Config.ringSlots), checkpoint := none }).setTime
        { t.time with sweeps := 0 }) :=
    setTime_keeps (fun _ => Nat.zero_le _) (setJrn_keeps id h)
  unfold commitCheckpoint
  dsimp only
  split
  · exact closingEnds_keeps (raise_keeps hset)
  · exact raise_keeps hset

theorem failCheckpoint_keeps {c : Checkpoint} (h : KeepsBounds s t) : KeepsBounds s (failCheckpoint c t) := by
  unfold failCheckpoint
  dsimp only
  split
  · exact toShutdown_keeps (raise_keeps (setJrn_keeps id h))
  · exact raise_keeps (setJrn_keeps id h)

theorem imageLineDone_keeps {c : Checkpoint} (h : KeepsBounds s t) : KeepsBounds s (imageLineDone c t) := by
  unfold imageLineDone
  dsimp only
  split <;> exact request_keeps (setJrn_keeps id h)

theorem checkpointOutcome_keeps {report : WriteReport} (h : KeepsBounds s t) :
    KeepsBounds s (checkpointOutcome report t) := by
  unfold checkpointOutcome
  split
  · split
    · exact failCheckpoint_keeps h
    · exact imageLineDone_keeps h
    · exact commitCheckpoint_keeps h
    · exact h
  · exact h

/-! ### What follows drains and records -/

theorem countLost_keeps (h : KeepsBounds s t) : KeepsBounds s (countLost t) :=
  raise_keeps (bumpHealth_keeps h)

theorem drainToWrite_keeps {d : Drain} {line : LineData} (h : KeepsBounds s t) :
    KeepsBounds s (drainToWrite d line t) := request_keeps (updDrain_keeps (fun _ => rfl) h)

theorem fillOutcome_keeps {d : Drain} {o : ReadOutcome LineData} (h : KeepsBounds s t) :
    KeepsBounds s (fillOutcome d o t) := by
  unfold fillOutcome
  split
  · exact drainToWrite_keeps h
  · dsimp only
    split
    · exact drainToWrite_keeps (retireCause_keeps h)
    · exact handOver_keeps (updDrain_keeps (fun _ => rfl) (retireCause_keeps h))

theorem endOrClear_keeps {d : Drain} (h : KeepsBounds s t) : KeepsBounds s (endOrClear d t) := by
  unfold endOrClear
  split
  · dsimp only
    split
    · exact endDrain_keeps (handOver_keeps (setPoison_keeps h))
    · exact handOver_keeps (updDrain_keeps (fun _ => rfl) (setPoison_keeps h))
  · exact endDrain_keeps h

theorem drainDone_keeps {d : Drain} (h : KeepsBounds s t) : KeepsBounds s (drainDone d t) :=
  checkWear_keeps (endOrClear_keeps (finishSlot_keeps (markLate_keeps (bumpHealth_keeps h))))

theorem drainFailOnce_keeps {d : Drain} (h : KeepsBounds s t) : KeepsBounds s (drainFailOnce d t) := by
  unfold drainFailOnce
  dsimp only
  split
  · exact setFailMark_keeps (endDrain_keeps (updSlot_keeps (fun _ => rfl) h))
  · exact endDrain_keeps (updSlot_keeps (fun _ => rfl) h)

theorem drainLoses_keeps {d : Drain} (h : KeepsBounds s t) : KeepsBounds s (drainLoses d t) := by
  unfold drainLoses
  dsimp only
  split
  · exact countLost_keeps (endDrain_keeps (freeSlot_keeps (updSlot_keeps (fun _ => rfl) h)))
  · exact handOver_keeps (updDrain_keeps (fun _ => rfl) (updSlot_keeps (fun _ => rfl) h))

theorem drainFails_keeps {d : Drain} (h : KeepsBounds s t) : KeepsBounds s (drainFails d t) := by
  unfold drainFails
  dsimp only
  split
  · exact drainLoses_keeps (markLate_keeps (retireCause_keeps h))
  · exact drainFailOnce_keeps (markLate_keeps (retireCause_keeps h))

theorem drainRecordDurable_keeps {d : Drain} (h : KeepsBounds s t) : KeepsBounds s (drainRecordDurable d t) := by
  unfold drainRecordDurable
  dsimp only
  split
  · exact drainToWrite_keeps (raise_keeps (setPoison_keeps h))
  · exact endLossWaits_keeps (countLost_keeps (endDrain_keeps (finishSlot_keeps (setPoison_keeps h))))
  · exact setPoison_keeps h

theorem recordEffect_keeps {c : Creator} {r : JournalRecord} (h : KeepsBounds s t) :
    KeepsBounds s (recordEffect c r t) := by
  unfold recordEffect
  split
  · exact updMig_keeps h
  · split
    · exact drainRecordDurable_keeps h
    · exact h
  · exact lateRecordDurable_keeps h
  · exact raise_keeps h
  · exact shutdownDurable_keeps h
  · exact h

theorem recordOutcome_keeps {report : WriteReport} (h : KeepsBounds s t) :
    KeepsBounds s (recordOutcome report t) := by
  unfold recordOutcome
  dsimp only
  split
  · rename_i r rest hstaged
    refine recordEffect_keeps (setJrn_keeps (fun hj => ?_) (setJrn_keeps id h))
    simp only [State.setJrn_jrn, JournalController.Within, hstaged, List.length_cons] at hj ⊢
    omega
  · exact setJrn_keeps id h

/-! ### FORMAT -/

/-- The clearing at FORMAT empties the buffer and the queues; the health counters are kept (R146). -/
theorem formatClear_keeps (h : KeepsBounds s t) : KeepsBounds s (formatClear t) where
  buf _ := ⟨Nat.zero_le _, List.nodup_nil, List.nodup_nil⟩
  host := h.host
  mig _ := Nat.zero_le _
  jrn _ := Nat.zero_le _
  media := h.media
  time := h.time
  health := h.health

theorem startFormat_keeps {spares retireWear : Nat} (h : KeepsBounds s t) :
    KeepsBounds s (startFormat spares retireWear t) :=
  request_keeps (enterState_keeps (setUnit_keeps (formatClear_keeps h)))

theorem requestFormatStep_keeps {w : FormatWork} (h : KeepsBounds s t) : KeepsBounds s (requestFormatStep w t) :=
  request_keeps (setUnit_keeps h)

theorem completeFormat_keeps {w : FormatWork} (h : KeepsBounds s t) : KeepsBounds s (completeFormat w t) :=
  handOver_keeps (enterState_keeps (raise_keeps (setTime_keeps (fun _ => Nat.zero_le _)
    (setJrn_keeps id (setMap_keeps (setUnit_keeps h))))))

theorem formatWriteOutcome_keeps {w : FormatWork} {report : WriteReport} (h : KeepsBounds s t) :
    KeepsBounds s (formatWriteOutcome w report t) := by
  unfold formatWriteOutcome
  split
  · exact enterFailed_keeps h
  · dsimp only
    split
    · exact requestFormatStep_keeps h
    · exact completeFormat_keeps h

/-! ### Recovery -/

theorem readNext_keeps {w : RecoveryWork} {p : Nat} (h : KeepsBounds s t) : KeepsBounds s (readNext w p t) :=
  request_keeps (setUnit_keeps h)

theorem recoverGeometry_keeps {w : RecoveryWork} {delivered : Option MetaLine} (h : KeepsBounds s t) :
    KeepsBounds s (recoverGeometry w delivered t) := by
  unfold recoverGeometry
  split
  · exact enterState_keeps (setUnit_keeps h)
  split
  · exact enterState_keeps (setUnit_keeps h)
  · exact readNext_keeps (setUnit_keeps h)

theorem readImage_keeps {w : RecoveryWork} (h : KeepsBounds s t) : KeepsBounds s (readImage w t) := by
  unfold readImage
  split
  · exact readNext_keeps h
  · exact enterFailed_keeps h

theorem rejectArea_keeps {b : Bool} {w : RecoveryWork} (h : KeepsBounds s t) : KeepsBounds s (rejectArea b w t) :=
  readImage_keeps h

theorem acceptArea_keeps {area : Area} {x : CheckpointHeader} {tables : Tables} {w : RecoveryWork}
    (h : KeepsBounds s t) : KeepsBounds s (acceptArea area x tables w t) := readNext_keeps (setJrn_keeps id h)

theorem judgeImage_keeps {area : Area} {x : CheckpointHeader} {g : GeometryRecord} {i : ImageWork} {w : RecoveryWork}
    (h : KeepsBounds s t) : KeepsBounds s (judgeImage area x g i w t) := by
  unfold judgeImage
  split
  · exact rejectArea_keeps h
  · dsimp only
    split
    · exact acceptArea_keeps h
    · exact rejectArea_keeps h

theorem recoverImageLine_keeps {x : ImageWork} {w : RecoveryWork} {delivered : Option MetaLine}
    (h : KeepsBounds s t) : KeepsBounds s (recoverImageLine x w delivered t) := by
  unfold recoverImageLine
  split
  · dsimp only
    split
    · exact readNext_keeps h
    · split
      · exact judgeImage_keeps h
      · exact rejectArea_keeps h
  · exact rejectArea_keeps h

theorem endReplay_keeps {area : Area} {x : CheckpointHeader} {g : GeometryRecord} {r : ReplayWork} {truncated : Bool}
    {w : RecoveryWork} (h : KeepsBounds s t) : KeepsBounds s (endReplay area x g r truncated w t) := by
  have hraised : KeepsBounds s (if truncated then raise .recoveryTruncated t else t) := by
    split
    · exact raise_keeps h
    · exact h
  unfold endReplay
  generalize (if truncated then raise .recoveryTruncated t else t) = v at hraised
  dsimp only
  split
  · exact handOver_keeps (startCheckpoint_keeps (enterState_keeps (setUnit_keeps
      (setMap_keeps (setJrn_keeps id hraised)))))
  · exact startCheckpoint_keeps (enterState_keeps (setUnit_keeps (setMap_keeps (setJrn_keeps id hraised))))

theorem recoverSlot_keeps {x : ReplayWork} {w : RecoveryWork} {delivered : Option MetaLine} (h : KeepsBounds s t) :
    KeepsBounds s (recoverSlot x w delivered t) := by
  unfold recoverSlot
  split
  · split
    · dsimp only
      split
      · exact endReplay_keeps h
      · exact endReplay_keeps h
      · split
        · exact readNext_keeps h
        · exact endReplay_keeps h
    · exact h
  · exact h

theorem recoveryOutcome_keeps {w : RecoveryWork} {delivered : Option MetaLine} (h : KeepsBounds s t) :
    KeepsBounds s (recoveryOutcome w delivered t) := by
  unfold recoveryOutcome
  split
  · exact recoverGeometry_keeps h
  · exact readNext_keeps h
  · exact readImage_keeps h
  · exact recoverImageLine_keeps h
  · exact recoverSlot_keeps h

/-! ### Time base -/

theorem commitSettingsNow_keeps (h : KeepsBounds s t) : KeepsBounds s (commitSettingsNow t) := by
  rcases commitSettingsNow_cases t with ⟨-, he⟩ | ⟨-, he⟩ | ⟨-, -, he⟩ <;> rw [he]
  · exact h
  · exact raise_keeps h
  · exact raise_keeps (evalPressure_keeps (setTime_keeps id h))

theorem evaluateHealth_keeps (h : KeepsBounds s t) : KeepsBounds s (evaluateHealth t) := by
  unfold evaluateHealth
  dsimp only
  split
  · exact raise_keeps (setHealth_keeps id h)
  · exact setHealth_keeps id h

theorem countSweep_keeps (h : KeepsBounds s t) : KeepsBounds s (countSweep t) := by
  have hcount : KeepsBounds s (t.setTime { t.time with sweeps := satRaise max16 t.time.sweeps }) :=
    setTime_keeps (fun ht => satRaise_le ht) h
  unfold countSweep
  dsimp only
  split
  · exact triggerCheckpoint_keeps hcount
  · exact hcount

theorem boundaryCommit_keeps (h : KeepsBounds s t) : KeepsBounds s (boundaryCommit t) := by
  refine setTime_keeps id ?_
  split
  · exact h
  · exact commitSettingsNow_keeps h

theorem boundarySweep_keeps (h : KeepsBounds s t) : KeepsBounds s (boundarySweep t) := by
  unfold boundarySweep
  split
  · exact countSweep_keeps (evaluateHealth_keeps (levelCheck_keeps (requeue_keeps h)))
  · exact h

theorem boundaryWork_keeps (h : KeepsBounds s t) : KeepsBounds s (boundaryWork t) :=
  ringTrigger_keeps (boundarySweep_keeps (boundaryCommit_keeps h))

theorem attemptTimesOut_keeps {op : InFlight} (h : KeepsBounds s t) : KeepsBounds s (attemptTimesOut op t) := by
  unfold attemptTimesOut
  split
  · exact enterFailed_keeps (raise_keeps (recordError_keeps h))
  · exact retryAttempt_keeps h

/-- A tick changes the counter and the queue of commands (R170). -/
theorem tick_keeps : KeepsBounds s (tick s) := by
  unfold tick
  split
  · exact .refl s
  · exact setPending_keeps (setTime_keeps id (setOut_keeps (.refl s)))

end Sys2Proof.Machine
end

section
/-! SUPPORT. That the rest of a happening, every command and so every step keep the bounds of every block. -/

namespace Sys2Proof.Machine

set_option Elab.async false

variable {s t u : State}

/-! ### The rest of a happening -/

theorem drainIssue?_keeps (h : drainIssue? s = some t) : KeepsBounds s t := by
  unfold drainIssue? at h
  split at h
  · split at h
    · cases h
      exact issueDrain_keeps ‹_› (.refl s)
    · cases h
  · cases h

theorem nextFollowUp_keeps (h : nextFollowUp s = some t) : KeepsBounds s t := by
  rcases nextFollowUp_cases h with h | h | h | h | h | h | h | h | h | h | h | h | h | h | h | h
  · exact abortComplete?_keeps h
  · exact migrationSwitch?_keeps h
  · exact creatorJoin?_keeps h
  · exact flushDone?_keeps h
  · exact persistDone?_keeps h
  · exact waitQueueTake?_keeps h
  · exact persistTake?_keeps h
  · exact migrationTake?_keeps h
  · exact quiesceEnd?_keeps h
  · exact lateCopyStart?_keeps h
  · exact drainLockEmptyingEnd?_keeps h
  · exact closingEmptyingEnd?_keeps h
  · exact closingCheckpointStart?_keeps h
  · exact imageFix?_keeps h
  · exact recordIssue?_keeps h
  · exact drainIssue?_keeps h

theorem settle_keeps (h : KeepsBounds s t) : KeepsBounds s (settle t) :=
  settle_induct (KeepsBounds s) (fun _ _ hu hv => hu.trans (nextFollowUp_keeps hv)) (fun _ hu => grantAll_keeps hu) t h

/-- A happening keeps what the command's own effect keeps. -/
theorem happening_keeps {body : State → State} (hbody : ∀ u, KeepsBounds u (body u)) :
    KeepsBounds s (happening body s) :=
  settle_keeps ((setOut_keeps (.refl s)).trans (hbody _))

theorem perform_keeps {e : State → Option State} (he : ∀ u v, e u = some v → KeepsBounds u v) :
    KeepsBounds s (perform e s) := by
  unfold perform
  cases h : e s with
  | none => exact .refl s
  | some v => exact he s v h

/-- A follow-up event commanded by name (log entry 3). -/
theorem performed_keeps {e : State → Option State} (he : ∀ u v, e u = some v → KeepsBounds u v) :
    KeepsBounds s (happening (perform e) s) := happening_keeps fun _ => perform_keeps he

/-! ### Commands -/

theorem judge_keeps {tag : Byte} {params : List Byte} {len : Nat} {permitted argsOk : State → Bool}
    {run : State → State} (hrun : KeepsBounds s (run t)) (h : KeepsBounds s t) :
    KeepsBounds s (judge tag params len permitted argsOk run t) := by
  rcases judge_cases tag params len permitted argsOk run t with
    ⟨-, he⟩ | ⟨-, he⟩ | ⟨-, -, he⟩ | ⟨-, -, -, he⟩ | ⟨-, -, -, he⟩ <;> rw [he]
  exacts [h, respond_keeps h, respond_keeps h, respond_keeps h, hrun]

/-- A request whose execution is its response alone. -/
theorem judgeBegun_keeps {tag : Byte} {params : List Byte} {len : Nat} {permitted argsOk : State → Bool}
    {run : State → State} (hrun : ∀ u, KeepsBounds u (run u)) :
    KeepsBounds s (judge tag params len permitted argsOk run (beginHappening s)) :=
  judge_keeps ((setOut_keeps (.refl s)).trans (hrun _)) (setOut_keeps (.refl s))

/-- A request executed in a happening. -/
theorem judged_keeps {tag : Byte} {params : List Byte} {len : Nat} {permitted argsOk : State → Bool}
    {run : State → State} (hrun : ∀ u, KeepsBounds u (run u)) :
    KeepsBounds s (happening (judge tag params len permitted argsOk run) s) :=
  happening_keeps fun u => judge_keeps (hrun u) (.refl u)

theorem answerOk_keeps {tag : Byte} {results : State → List Byte} : KeepsBounds s (answerOk tag results s) :=
  respond_keeps (.refl s)

theorem readTransfer_keeps {n : Nat} (h : KeepsBounds s t) : KeepsBounds s (readTransfer n t) := by
  unfold readTransfer
  dsimp only
  split
  · exact setLink_keeps (setOut_keeps h)
  · exact setOut_keeps h

theorem setPersistentFence_keeps {tag : Byte} {v : Nat} : KeepsBounds s (setPersistentFence tag v s) := by
  unfold setPersistentFence
  split
  · exact respond_keeps (.refl s)
  · exact respond_keeps (handOver_keeps (setMap_keeps (.refl s)))

theorem setFence_keeps {tag : Byte} {params : List Byte} : KeepsBounds s (setFence tag params s) := by
  unfold setFence
  dsimp only
  split
  · exact judge_keeps setPersistentFence_keeps (.refl s)
  · exact judge_keeps (respond_keeps (setMap_keeps (.refl s))) (.refl s)

theorem requestMigration_keeps {tag : Byte} {l : Nat} : KeepsBounds s (requestMigration tag l s) := by
  unfold requestMigration
  split
  · exact respond_keeps (.refl s)
  split
  · exact respond_keeps (joinBack_keeps ‹_› (.refl s))
  · exact respond_keeps (.refl s)

theorem restartNow_keeps {tag : Byte} : KeepsBounds s (restartNow tag s) := by
  unfold restartNow
  split
  · exact respond_keeps (enterClosing_keeps (.refl s))
  · exact respond_keeps volatileReset_keeps

theorem formatNow_keeps {tag : Byte} {spares retireWear : Nat} : KeepsBounds s (formatNow tag spares retireWear s) := by
  unfold formatNow
  split
  · exact respond_keeps (.refl s)
  · exact respond_keeps (startFormat_keeps (.refl s))

theorem hostReadOutcome_keeps {op : InFlight} {o : ReadOutcome LineData} (h : KeepsBounds s t) :
    KeepsBounds s (hostReadOutcome op o t) := by
  have hreport : KeepsBounds s
      (match o with
        | .uncorrectable => retireCause (frameOf op.request.physical) .retireError (readOutcome op o t)
        | _ => readOutcome op o t) := by
    split
    · exact retireCause_keeps (readOutcome_keeps h)
    · exact readOutcome_keeps h
  unfold hostReadOutcome
  dsimp only
  split
  · split
    · exact returnRead_keeps hreport
    · exact hreport
  · exact hreport

theorem engineRead_keeps {o : ReadOutcome LineData} (h : KeepsBounds s t) : KeepsBounds s (engineRead o t) := by
  unfold engineRead
  split
  · split
    · exact copyReadOutcome_keeps h
    · exact lateReadOutcome_keeps h
    · exact h
  · exact h

theorem engineWrite_keeps {report : WriteReport} (h : KeepsBounds s t) : KeepsBounds s (engineWrite report t) := by
  unfold engineWrite
  split
  · split
    · exact copyWriteOutcome_keeps h
    · exact updMig_keeps h
    · exact lateWriteFail_keeps h
    · exact h
  · exact h

theorem formatReadArrives_keeps {id : AttemptId} {stored : Stored} : KeepsBounds s (formatReadArrives id stored s) := by
  unfold formatReadArrives
  split
  · exact requestFormatStep_keeps (readOutcome_keeps (.refl s))
  · exact .refl s

theorem formatWriteArrives_keeps {id : AttemptId} {report : WriteReport} :
    KeepsBounds s (formatWriteArrives id report s) := by
  unfold formatWriteArrives
  split
  · exact formatWriteOutcome_keeps (writeOutcome_keeps (.refl s))
  · exact .refl s

theorem warningAsserted_keeps (h : KeepsBounds s t) : KeepsBounds s (warningAsserted t) := by
  unfold warningAsserted
  split
  · exact enterDrainLock_keeps h
  · exact enterDrainLock_keeps h
  · exact enterDrainLock_keeps h
  · exact abandonToSafe_keeps h
  · exact abandonToSafe_keeps h
  all_goals exact h

theorem assertReset_keeps : KeepsBounds s (assertReset s) := by
  unfold assertReset
  split
  · exact .refl s
  · exact hardReset_keeps

theorem releaseReset_keeps {sizeStraps : BitVec 6} {addrStraps : BitVec 2} :
    KeepsBounds s (releaseReset sizeStraps addrStraps s) := by
  unfold releaseReset
  split
  · exact startRecovery_keeps (setTime_keeps id (setUnit_keeps (.refl s)))
  · exact .refl s

theorem assertHoldUp_keeps : KeepsBounds s (assertHoldUp s) := by
  unfold assertHoldUp
  split
  · exact .refl s
  · exact warningAsserted_keeps (setUnit_keeps (.refl s))

theorem deassertHoldUp_keeps : KeepsBounds s (deassertHoldUp s) := by
  unfold deassertHoldUp
  split
  · dsimp only
    split
    · exact leaveSafeDrainLock_keeps (setUnit_keeps (.refl s))
    · exact setUnit_keeps (.refl s)
  · exact .refl s

/-! ### Every command, and every step -/

theorem execResponseRead_keeps {n : Nat} (h : execResponseRead n s = .next t) : KeepsBounds s t := by
  refine .of_next h ?_
  split
  · exact setOut_keeps (.refl s)
  · exact readTransfer_keeps (setOut_keeps (.refl s))

/-- A transfer that is answered with a status alone, or not at all (R183). -/
theorem answeredUnless_keeps {c : Prop} [Decidable c] {tag : Byte} {status : Status} :
    KeepsBounds s (if c then beginHappening s else respond tag status [] (beginHappening s)) := by
  split
  · exact setOut_keeps (.refl s)
  · exact respond_keeps (setOut_keeps (.refl s))

theorem execSweepBoundary_keeps (h : execSweepBoundary s = .next t) : KeepsBounds s t := by
  refine .of_next h (happening_keeps fun u => ?_)
  split
  · exact boundaryWork_keeps (.refl u)
  · exact .refl u

theorem execAttemptTimeout_keeps {place : Fin 8} (h : execAttemptTimeout place s = .next t) : KeepsBounds s t := by
  refine .of_next h (happening_keeps fun u => ?_)
  split
  · exact attemptTimesOut_keeps (.refl u)
  · exact .refl u

theorem execHostReadReturn_keeps {id : AttemptId} {stored : Stored} (h : execHostReadReturn id stored s = .next t) :
    KeepsBounds s t := by
  refine .of_next h (happening_keeps fun u => ?_)
  split
  · exact hostReadOutcome_keeps (.refl u)
  · exact .refl u

theorem execFillReadComplete_keeps {id : AttemptId} {stored : Stored}
    (h : execFillReadComplete id stored s = .next t) : KeepsBounds s t := by
  refine .of_next h (happening_keeps fun u => ?_)
  dsimp only
  split
  · split
    · exact fillOutcome_keeps (readOutcome_keeps (.refl u))
    · exact readOutcome_keeps (.refl u)
  · exact .refl u

theorem execDrainWriteComplete_keeps {id : AttemptId} {report : WriteReport}
    (h : execDrainWriteComplete id report s = .next t) : KeepsBounds s t := by
  refine .of_next h (happening_keeps fun u => ?_)
  dsimp only
  split
  · split
    · exact drainDone_keeps (writeOutcome_keeps (.refl u))
    · exact drainFails_keeps (writeOutcome_keeps (.refl u))
    · exact writeOutcome_keeps (.refl u)
  · exact .refl u

theorem execCopyReadComplete_keeps {id : AttemptId} {stored : Stored}
    (h : execCopyReadComplete id stored s = .next t) : KeepsBounds s t := by
  refine .of_next h (happening_keeps fun u => ?_)
  dsimp only
  split
  · exact engineRead_keeps (readOutcome_keeps (.refl u))
  · exact .refl u

theorem execCopyWriteComplete_keeps {id : AttemptId} {report : WriteReport}
    (h : execCopyWriteComplete id report s = .next t) : KeepsBounds s t := by
  refine .of_next h (happening_keeps fun u => ?_)
  split
  · exact engineWrite_keeps (writeOutcome_keeps (.refl u))
  · exact .refl u

theorem execRecordWriteComplete_keeps {id : AttemptId} {report : WriteReport}
    (h : execRecordWriteComplete id report s = .next t) : KeepsBounds s t := by
  refine .of_next h (happening_keeps fun u => ?_)
  split
  · exact recordOutcome_keeps (writeOutcome_keeps (.refl u))
  · exact .refl u

theorem execCheckpointLineComplete_keeps {id : AttemptId} {report : WriteReport}
    (h : execCheckpointLineComplete id report s = .next t) : KeepsBounds s t := by
  refine .of_next h (happening_keeps fun u => ?_)
  dsimp only
  split
  · split
    · exact checkpointOutcome_keeps (writeOutcome_keeps (.refl u))
    · exact writeOutcome_keeps (.refl u)
  · exact .refl u

theorem execFormatOperationComplete_keeps {id : AttemptId} {completion : FormatCompletion}
    (h : execFormatOperationComplete id completion s = .next t) : KeepsBounds s t := by
  refine .of_next h (happening_keeps fun u => ?_)
  cases completion with
  | read stored => exact formatReadArrives_keeps
  | write report => exact formatWriteArrives_keeps

theorem execRecoveryReadComplete_keeps {id : AttemptId} {stored : Stored}
    (h : execRecoveryReadComplete id stored s = .next t) : KeepsBounds s t := by
  refine .of_next h (happening_keeps fun u => ?_)
  dsimp only
  split
  · exact recoveryOutcome_keeps (readOutcome_keeps (.refl u))
  · exact .refl u

theorem execAbortMigration_keeps {tag : Byte} {params : List Byte} (h : execAbortMigration tag params s = .next t) :
    KeepsBounds s t := by
  refine .of_next h (judged_keeps fun u => respond_keeps ?_)
  split
  · exact .refl u
  · exact takeAbort_keeps (.refl u)

theorem execCheckpointNow_keeps {tag : Byte} {params : List Byte} (h : execCheckpointNow tag params s = .next t) :
    KeepsBounds s t := by
  refine .of_next h (judged_keeps fun u => ?_)
  split
  · exact respond_keeps (.refl u)
  · exact respond_keeps (startCheckpoint_keeps (.refl u))

/-- Every command keeps the bounds of every block. -/
theorem exec_keeps (c : Instr) (h : exec c s = .next t) : KeepsBounds s t := by
  cases c with
  | resetAssert => exact .of_next h (happening_keeps fun _ => assertReset_keeps)
  | resetRelease => exact .of_next h (happening_keeps fun _ => releaseReset_keeps)
  | holdUpAssert => exact .of_next h (happening_keeps fun _ => assertHoldUp_keeps)
  | holdUpDeassert => exact .of_next h (happening_keeps fun _ => deassertHoldUp_keeps)
  | sweepBoundary => exact execSweepBoundary_keeps h
  | drainAgeReached => exact .of_next h (happening_keeps fun u => .refl u)
  | stampAgeClamp => exact .of_next h (happening_keeps fun u => updSlot_keeps (fun _ => rfl) (.refl u))
  | hostRead => exact .of_next h (happening_keeps fun u => hostReadArrives_keeps (.refl u))
  | hostWrite => exact .of_next h (happening_keeps fun u => hostWriteArrives_keeps (.refl u))
  | hostPersist => exact .of_next h (happening_keeps fun u => hostPersistArrives_keeps (.refl u))
  | hostUnknownKind => exact .of_next h (happening_keeps fun u => hostUnknownArrives_keeps (.refl u))
  | waitQueueTake => exact .of_next h (performed_keeps fun _ _ => waitQueueTake?_keeps)
  | persistTake => exact .of_next h (performed_keeps fun _ _ => persistTake?_keeps)
  | persistDone => exact .of_next h (performed_keeps fun _ _ => persistDone?_keeps)
  | flushDone => exact .of_next h (performed_keeps fun _ _ => flushDone?_keeps)
  | drainIssue => exact .of_next h (performed_keeps fun _ _ => drainIssue?_keeps)
  | mediaGrant => exact .of_next h (happening_keeps fun u => grantAll_keeps (.refl u))
  | attemptTimeout => exact execAttemptTimeout_keeps h
  | staleCompletionDiscard => exact .of_next h (setOut_keeps (.refl s))
  | hostReadReturn => exact execHostReadReturn_keeps h
  | fillReadComplete => exact execFillReadComplete_keeps h
  | drainWriteComplete => exact execDrainWriteComplete_keeps h
  | copyReadComplete => exact execCopyReadComplete_keeps h
  | copyWriteComplete => exact execCopyWriteComplete_keeps h
  | recordWriteComplete => exact execRecordWriteComplete_keeps h
  | checkpointLineComplete => exact execCheckpointLineComplete_keeps h
  | formatOperationComplete => exact execFormatOperationComplete_keeps h
  | recoveryReadComplete => exact execRecoveryReadComplete_keeps h
  | migrationTake => exact .of_next h (performed_keeps fun _ _ => migrationTake?_keeps)
  | quiesceEnd => exact .of_next h (performed_keeps fun _ _ => quiesceEnd?_keeps)
  | migrationSwitch => exact .of_next h (performed_keeps fun _ _ => migrationSwitch?_keeps)
  | lateCopyStart => exact .of_next h (performed_keeps fun _ _ => lateCopyStart?_keeps)
  | abortComplete => exact .of_next h (performed_keeps fun _ _ => abortComplete?_keeps)
  | recordWriteIssue => exact .of_next h (performed_keeps fun _ _ => recordIssue?_keeps)
  | creatorJoinQueue => exact .of_next h (performed_keeps fun _ _ => creatorJoin?_keeps)
  | checkpointImageFix => exact .of_next h (performed_keeps fun _ _ => imageFix?_keeps)
  | drainLockEmptyingEnd => exact .of_next h (performed_keeps fun _ _ => drainLockEmptyingEnd?_keeps)
  | closingEmptyingEnd => exact .of_next h (performed_keeps fun _ _ => closingEmptyingEnd?_keeps)
  | closingCheckpointStart => exact .of_next h (performed_keeps fun _ _ => closingCheckpointStart?_keeps)
  | responseRead => exact execResponseRead_keeps h
  | unknownCommand => exact .of_next h answeredUnless_keeps
  | getStatus => exact .of_next h (judgeBegun_keeps fun _ => answerOk_keeps)
  | getHealth => exact .of_next h (judgeBegun_keeps fun _ => answerOk_keeps)
  | getIdentity => exact .of_next h (judgeBegun_keeps fun _ => answerOk_keeps)
  | readMapEntry => exact .of_next h (judgeBegun_keeps fun _ => answerOk_keeps)
  | readFrameRecord => exact .of_next h (judgeBegun_keeps fun _ => answerOk_keeps)
  | readPoolEntry => exact .of_next h (judgeBegun_keeps fun _ => answerOk_keeps)
  | getSetting => exact .of_next h (judgeBegun_keeps fun _ => answerOk_keeps)
  | stageSetting => exact .of_next h (judgeBegun_keeps fun u => respond_keeps (setTime_keeps id (.refl u)))
  | commitSettings => exact .of_next h (judged_keeps fun u => respond_keeps (commitSettingsNow_keeps (.refl u)))
  | discardStaged => exact .of_next h (judgeBegun_keeps fun u => respond_keeps (setTime_keeps id (.refl u)))
  | setFenceVolatile => exact .of_next h (happening_keeps fun _ => setFence_keeps)
  | setFencePersistent => exact .of_next h (happening_keeps fun _ => setFence_keeps)
  | flush =>
    exact .of_next h (judged_keeps fun u => respond_keeps (setBuf_keeps (fun hb => { hb with }) (.refl u)))
  | requestMigration => exact .of_next h (judged_keeps fun _ => requestMigration_keeps)
  | abortMigration => exact execAbortMigration_keeps h
  | checkpointNow => exact execCheckpointNow_keeps h
  | prepareOff => exact .of_next h (judged_keeps fun u => respond_keeps (enterClosing_keeps (.refl u)))
  | resume => exact .of_next h (judged_keeps fun u => respond_keeps (leaveSafe_keeps (.refl u)))
  | restart => exact .of_next h (judged_keeps fun _ => restartNow_keeps)
  | format => exact .of_next h (judged_keeps fun _ => formatNow_keeps)
  | readEvents => exact .of_next h (judgeBegun_keeps fun _ => answerOk_keeps)
  | clearEvents => exact .of_next h (judgeBegun_keeps fun u => respond_keeps (setLink_keeps (.refl u)))
  | setEventEnable => exact .of_next h (judgeBegun_keeps fun u => respond_keeps (setLink_keeps (.refl u)))
  | requestNotWellFormed => exact .of_next h answeredUnless_keeps

theorem step_keeps (h : step s = .next t) : KeepsBounds s t := by
  unfold step at h
  split at h
  · exact (setPending_keeps (.refl s)).trans (exec_keeps _ h)
  · exact .of_next h tick_keeps

/-- Settles O4: block by block, every step keeps the bounds. -/
theorem stepKeepsEveryTableInBounds : Obligations.StepKeepsEveryTableInBounds :=
  ⟨fun _ _ hs h => (step_keeps h).bounded hs, fun _ _ hs h => (step_keeps h).health hs⟩

end Sys2Proof.Machine
end

section
/-! SUPPORT. STAMP_AGE_CLAMP and FLUSH. -/

namespace Sys2Proof.Machine

/-! ### STAMP_AGE_CLAMP (R26) -/

theorem exec_stampAgeClamp (line : Nat) (s : State) : exec (.stampAgeClamp line) s =
    .next (settle (updSlot line (clampSlot s.time.tick) (beginHappening s))) := rfl

/-- Settles O18: the command's own effect is the clamp of the line's slot. -/
theorem stampAgeClampAdvancesOldStamps : Obligations.StampAgeClampAdvancesOldStamps := fun line s =>
  exec_stampAgeClamp line s

/-! ### FLUSH (R41, R42) -/

section
variable {s : State}

/-- FLUSH is executed where Table 11.3 permits it: the barrier is set and the answer is ACCEPTED (R41). -/
theorem exec_flush (tag : Byte) (hs : s.unit.state ∈ [.online, .writeProtected, .safe]) :
    exec (.flush tag []) s = .next (settle { s.withResponse tag .accepted [] with
      buf := { s.buf with flush := some s.host.acceptSeq } }) := by
  have hp : (beginHappening s).mayFlush = true := by
    simpa [State.mayFlush, State.running, or_assoc] using hs
  have hr : (beginHappening s).unit.state ≠ .reset := fun h => by
    have h : s.unit.state = .reset := h
    simp [h] at hs
  change Host.Outcome.next (settle (judge tag [] 0 State.mayFlush always _ (beginHappening s))) = _
  rw [judge_run (len := 0) hr rfl hp rfl]
  rfl

theorem nextFollowUp_of_quiet (h : s.quiet = true) : nextFollowUp s = none := by
  simp only [State.quiet, Bool.and_eq_true, Option.isNone_iff_eq_none] at h
  exact h.1.1

theorem satisfied_of_noSlots (hslots : s.buf.slots = []) (b : Word32) : s.satisfied b = true := by
  simp [State.satisfied, State.floor, hslots, floorOf]

/-- With no slot taken every barrier is satisfied, so FLUSH_DONE follows a barrier at once (R42). -/
theorem flushDone?_of_noSlots (hf : s.unit.state ≠ .failed) (hslots : s.buf.slots = []) {b : Word32}
    (hb : s.buf.flush = some b) : flushDone? s = some (raise .flushDone (s.setBuf { s.buf with flush := none })) := by
  simp [flushDone?, hf, hb, satisfied_of_noSlots hslots]

/-- In a state from which nothing follows, with no slot taken, no barrier stands. -/
theorem noBarrier_of_quiet (hq : nextFollowUp s = none) (hf : s.unit.state ≠ .failed) (hslots : s.buf.slots = []) :
    s.buf.flush = none := by
  cases hb : s.buf.flush with
  | none => rfl
  | some b =>
    have hnone : flushDone? s = none := List.findSome?_eq_none_iff.mp hq _ (by simp [followUps])
    simp [flushDone?_of_noSlots hf hslots hb] at hnone

theorem eq_none_of_isNone_eq {a b : Option State} (h : a.isNone = b.isNone) (hb : b = none) : a = none := by
  simpa [hb] using h

/-- The events tried before FLUSH_DONE do not look at the barrier. -/
theorem nextFollowUp_of_barrier (hq : nextFollowUp s = none) (hf : s.unit.state ≠ .failed) (hslots : s.buf.slots = [])
    (b : Word32) : nextFollowUp (s.setBuf { s.buf with flush := some b }) =
      some (raise .flushDone (s.setBuf { s.buf with flush := none })) := by
  have hnone := List.findSome?_eq_none_iff.mp hq
  have habort := eq_none_of_isNone_eq ((abortComplete?_isNone (s.setBuf { s.buf with flush := some b })).trans
    (abortComplete?_isNone s).symm) (hnone _ (by simp [followUps]))
  have hswitch := eq_none_of_isNone_eq ((migrationSwitch?_isNone (s.setBuf { s.buf with flush := some b })).trans
    (migrationSwitch?_isNone s).symm) (hnone _ (by simp [followUps]))
  have hjoin := eq_none_of_isNone_eq ((creatorJoin?_isNone (s.setBuf { s.buf with flush := some b })).trans
    (creatorJoin?_isNone s).symm) (hnone _ (by simp [followUps]))
  have hflush := flushDone?_of_noSlots (s := s.setBuf { s.buf with flush := some b }) hf hslots rfl
  simp only [nextFollowUp, followUps, List.findSome?_cons, habort, hswitch, hjoin, hflush]
  rfl

/-- FLUSH in a quiet state with no slot taken: FLUSH_DONE is raised in the same happening, and nothing else follows. -/
theorem settle_of_barrier (hq : s.quiet = true) (hf : s.unit.state ≠ .failed) (hslots : s.buf.slots = [])
    (b : Word32) : settle (s.setBuf { s.buf with flush := some b }) = raise .flushDone s := by
  have hnone := nextFollowUp_of_quiet hq
  have hbuf : s.buf = { s.buf with flush := none } := by
    rw [← noBarrier_of_quiet hnone hf hslots]
  have hone := nextFollowUp_of_barrier hnone hf hslots b
  rw [← hbuf] at hone
  have hquiet : (raise .flushDone s).quiet = true := (quiet_dressed s s.out s.pending _ s.health).trans hq
  have hlast := nextFollowUp_of_quiet hquiet
  calc settle (s.setBuf { s.buf with flush := some b }) = grantAll (raise .flushDone s) := settle_of_one hone hlast
    _ = settle (raise .flushDone s) := by rw [settle, followUpTo_of_none hlast]
    _ = raise .flushDone s := settle_of_quiet hquiet

end

/-- Settles O51: the barrier is set, and in a quiet state with no slot taken FLUSH_DONE alone follows. -/
theorem flushSetsTheBarrier : Obligations.FlushSetsTheBarrier := by
  rintro tag s u hs rfl
  refine ⟨exec_flush tag hs, fun hq hslots => ?_⟩
  have hf : s.unit.state ≠ .failed := fun h => by simp [h] at hs
  have hquiet : (s.withResponse tag .accepted []).quiet = true :=
    (quiet_dressed s Outputs.none s.pending _ s.health).trans hq
  have hnone : s.buf.flush = none := noBarrier_of_quiet (nextFollowUp_of_quiet hq) hf hslots
  have hbuf : { s.buf with flush := none } = s.buf := by rw [← hnone]
  rw [exec_flush tag hs, hbuf]
  exact congrArg _ (settle_of_barrier hquiet hf hslots s.host.acceptSeq)

end Sys2Proof.Machine
end

section
/-! SUPPORT. The drain order, the slot next to drain, and the issue of a drain (R26 to R31). -/

namespace Sys2Proof.Machine

/-! ### The drain order (R22, R26) -/

/-- Within half the range of a base, the order of R22 is that of the distances from the base. -/
theorem seqLe_iff {a b base : Word32} (ha : (a - base).toNat < 2 ^ 31) (hb : (b - base).toNat < 2 ^ 31) :
    seqLe a b = true ↔ (a - base).toNat ≤ (b - base).toNat := by
  simp only [seqLe, decide_eq_true_eq]
  bv_omega

/-- Slot x does not stand before slot sl in the drain order: it is younger, or of its age and not of a lower oldest
sequence, counted from a base. -/
def NotBefore (now base : Word32) (x sl : Slot) : Prop :=
  (now - x.stamp).toNat < (now - sl.stamp).toNat ∨
  ((now - x.stamp).toNat = (now - sl.stamp).toNat ∧ (sl.oldest - base).toNat ≤ (x.oldest - base).toNat)

theorem NotBefore.refl (now base : Word32) (x : Slot) : NotBefore now base x x := .inr ⟨rfl, le_rfl⟩

theorem NotBefore.trans {now base : Word32} {x y z : Slot} (h : NotBefore now base x y) (k : NotBefore now base y z) :
    NotBefore now base x z := by
  unfold NotBefore at *
  omega

/-- Of two slots, the one that R26 names stands first. -/
theorem drainsBefore_cases {now base : Word32} {x y : Slot} (hx : (x.oldest - base).toNat < 2 ^ 31)
    (hy : (y.oldest - base).toNat < 2 ^ 31) :
    (drainsBefore now y x = true → NotBefore now base x y) ∧ (drainsBefore now y x = false → NotBefore now base y x) := by
  have hiff : drainsBefore now y x = true ↔ (now - x.stamp).toNat < (now - y.stamp).toNat ∨
      ((now - y.stamp).toNat = (now - x.stamp).toNat ∧ y.oldest ≠ x.oldest ∧
        (y.oldest - base).toNat ≤ (x.oldest - base).toNat) := by
    rw [← seqLe_iff hy hx]
    simp only [drainsBefore, Bool.or_eq_true, Bool.and_eq_true, decide_eq_true_eq, and_assoc]
    rfl
  constructor
  · intro h
    rcases hiff.mp h with h | ⟨h, -, hle⟩
    · exact .inl h
    · exact .inr ⟨h.symm, hle⟩
  · intro h
    have hnot := mt hiff.mpr (Bool.eq_false_iff.mp h)
    unfold NotBefore
    by_cases heq : y.oldest = x.oldest
    · rw [heq] at hnot ⊢
      omega
    · simp only [Ne, heq, not_false_eq_true, true_and] at hnot
      omega

theorem firstInDrainOrder_eq_none {now : Word32} {l : List Slot} : firstInDrainOrder now l = none ↔ l = [] := by
  cases l with
  | nil => simp [firstInDrainOrder]
  | cons x rest =>
    simp only [firstInDrainOrder, reduceCtorEq, iff_false]
    split
    · simp
    · split <;> simp

/-- The first slot of a list in the drain order is in the list, and none of the list stands before it. -/
theorem firstInDrainOrder_spec {now base : Word32} {l : List Slot} (hl : ∀ x ∈ l, (x.oldest - base).toNat < 2 ^ 31)
    {sl : Slot} (h : firstInDrainOrder now l = some sl) : sl ∈ l ∧ ∀ x ∈ l, NotBefore now base x sl := by
  induction l generalizing sl with
  | nil => simp [firstInDrainOrder] at h
  | cons x rest ih =>
    rw [List.forall_mem_cons] at hl
    unfold firstInDrainOrder at h
    split at h
    · rename_i hnone
      cases h
      rw [firstInDrainOrder_eq_none.mp hnone]
      simpa using NotBefore.refl now base x
    · rename_i y hy
      obtain ⟨hmem, hfirst⟩ := ih hl.2 hy
      obtain ⟨hbefore, hafter⟩ := drainsBefore_cases (now := now) hl.1 (hl.2 y hmem)
      split at h <;> cases h
      · exact ⟨List.mem_cons_of_mem x hmem, List.forall_mem_cons.mpr ⟨hbefore ‹_›, hfirst⟩⟩
      · have hx := hafter (by simp_all)
        exact ⟨List.mem_cons_self, List.forall_mem_cons.mpr
          ⟨.refl now base x, fun z hz => (hfirst z hz).trans hx⟩⟩

/-! ### The slots that are ready (R27 to R29) -/

theorem holdClear_iff (s : State) (l : Nat) : s.holdClear l = true ↔
    ∃ e, s.entry? l = some e ∧ e.migrationMark = false ∧ e.failMark = false := by
  cases h : s.entry? l <;> simp [State.holdClear, MapEntry.holdClear, h]

theorem due_iff (s : State) (x : Slot) : s.due x = true ↔
    s.time.active.drainAge ≤ (s.time.tick - x.stamp).toNat ∨ s.buf.pressure = true ∨
    (∃ p ∈ s.host.persists, (p.barrier - x.oldest).toNat < 2 ^ 31) ∨
    (∃ b, s.buf.flush = some b ∧ (b - x.oldest).toNat < 2 ^ 31) ∨
    s.unit.state = .drainLock ∨ s.unit.state = .closing := by
  simp only [State.due, State.ageDue, seqLe, Bool.or_eq_true, List.any_eq_true, decide_eq_true_eq, or_assoc]
  cases s.buf.flush <;> simp [ageAt]

/-- The slots the scheduler chooses from are those that are eligible and due (R29). -/
theorem mem_ready_iff (s : State) (x : Slot) : x ∈ s.buf.slots.filter (fun sl => s.eligible sl && s.due sl) ↔
    x ∈ s.buf.slots ∧ x.draining = false ∧
    (∃ e, s.entry? (x.line / 64) = some e ∧ e.migrationMark = false ∧ e.failMark = false) ∧ s.due x = true := by
  simp [State.eligible, frameOf, holdClear_iff, and_assoc]

/-! ### The issue of a drain (R31, Table 2.3) -/

theorem not_stopped_of_working {s : State} (h : s.working = true) : s.unit.state ≠ .failed ∧ s.unit.state ≠ .reset := by
  constructor <;> intro hs <;> simp [State.working, State.running, hs] at h

/-- A request handed over outside FAILED and RESET arrives at the end of the happening (R66). -/
theorem request_eq {s : State} (hf : s.unit.state ≠ .failed) (hr : s.unit.state ≠ .reset) (r : MediaRequest) :
    request r s = s.setMedia { s.media with arriving := s.media.arriving ++ [r] } := by
  simp [request, hf, hr]

/-- A partial slot of an unpoisoned line is filled first; a full or a poisoned one is written at once (Table 2.3). -/
theorem issueDrain_eq {s : State} (hw : s.working = true) (p : Fin 4) (sl : Slot) : issueDrain p sl s = { s with
    buf := { s.buf with
      slots := s.buf.slots.map fun x => if x.line = sl.line then { x with draining := true, redirty := none } else x
      drains := s.buf.drains ++ [
        { place := p, line := sl.line, snapshot := sl.data, snapMask := sl.valid, covered := sl.newest,
          physical := s.physicalOf sl.line, poisoned := s.poisoned sl.line,
          formed := overlay sl.valid sl.data zeroLine,
          phase := if sl.valid ≠ fullMask ∧ s.poisoned sl.line = false then .fill else .write }] }
    media := { s.media with
      arriving := s.media.arriving ++ [
        { cls := .drain, requester := .drain p, physical := s.physicalOf sl.line
          kind := if sl.valid ≠ fullMask ∧ s.poisoned sl.line = false then .read
            else .write (.data (overlay sl.valid sl.data zeroLine)) }] } } := by
  obtain ⟨hf, hr⟩ := not_stopped_of_working hw
  unfold issueDrain
  dsimp only
  rw [request_eq (by simpa using hf) (by simpa using hr)]
  by_cases hfill : sl.valid ≠ fullMask ∧ s.poisoned sl.line = false
  · simp [issuedDrain, Slot.full, hfill, fillReadRequest, updSlot, State.setBuf, State.setMedia]
  · have hphase : (!sl.full && !s.poisoned sl.line) = false := by
      by_cases hv : sl.valid = fullMask <;> simp_all [Slot.full]
    simp [issuedDrain, hphase, hfill, drainWriteRequest, updSlot, State.setBuf, State.setMedia]

theorem drainIssue?_of_next {p : Fin 4} {sl : Slot} {s : State} (hw : s.working = true)
    (hp : freeDrainPlace s.buf = some p) (hn : s.nextToDrain = some sl) :
    drainIssue? (beginHappening s) = some (issueDrain p sl (beginHappening s)) := by
  have hw : (beginHappening s).working = true := hw
  have hp : freeDrainPlace (beginHappening s).buf = some p := hp
  have hn : (beginHappening s).nextToDrain = some sl := hn
  simp only [drainIssue?, hw, if_true, hp, hn]

theorem drainIssue?_of_none {s : State} (hn : s.nextToDrain = none) : drainIssue? (beginHappening s) = none := by
  have hn : (beginHappening s).nextToDrain = none := hn
  simp [drainIssue?, hn]

/-- DRAIN_ISSUE is the last of the follow-up events that are tried (log entry 19). -/
theorem nextFollowUp_of_last {s : State} (h : ∀ e ∈ followUps.dropLast, e s = none) : nextFollowUp s = drainIssue? s := by
  have hsplit : followUps = followUps.dropLast ++ [drainIssue?] := rfl
  rw [nextFollowUp, hsplit, List.findSome?_append, List.findSome?_eq_none_iff.mpr h, Option.none_or,
    List.findSome?_singleton]

theorem exec_drainIssue (s : State) :
    exec .drainIssue s = .next (settle (perform drainIssue? (beginHappening s))) := rfl

/-- Settles O19: the issue, the order in which R26 to R29 choose, and the case of no ready slot. -/
theorem drainIssueTakesTheFirstPhase : Obligations.DrainIssueTakesTheFirstPhase := by
  refine ⟨fun p sl s u hw hp hn hu => ?_, fun s base hbase ready hready => ?_, fun s hn => ?_⟩
  · have hissue : drainIssue? (beginHappening s) = some u := by
      rw [drainIssue?_of_next hw hp hn, issueDrain_eq (s := beginHappening s) hw, hu]
      rfl
    refine ⟨(exec_drainIssue s).trans (by rw [perform_of_some hissue]), fun hnone hlast => ?_⟩
    exact congrArg _ (settle_of_one ((nextFollowUp_of_last hnone).trans hissue) hlast)
  · have hmem : ∀ x, x ∈ s.buf.slots.filter (fun sl => s.eligible sl && s.due sl) ↔ ready x := fun x => by
      rw [mem_ready_iff, due_iff, hready]
    refine ⟨?_, fun sl hsl => ?_⟩
    · rw [State.nextToDrain, firstInDrainOrder_eq_none, List.eq_nil_iff_forall_not_mem]
      exact forall_congr' fun x => not_congr (hmem x)
    · obtain ⟨hin, hfirst⟩ := firstInDrainOrder_spec (fun x hx => hbase x (List.mem_of_mem_filter hx)) hsl
      exact ⟨(hmem sl).mp hin, fun x hx => hfirst x ((hmem x).mpr hx)⟩
  · rw [exec_drainIssue, perform, drainIssue?_of_none hn]
    rfl

end Sys2Proof.Machine
end

section
/-! SUPPORT. The completions of a drain's fill read and of its write (R32 to R39, R101). -/

namespace Sys2Proof.Machine

/-! ### Whose operation ends (R63, R64) -/

section
variable {s : State} {op : InFlight} {p : Fin 4} {d : Drain}

theorem place_of_drain? (h : s.drain? p = some d) : d.place = p := by
  simpa using List.find?_some h

theorem decodeStored_clean {data : LineData} {stored : Stored} (h : errorsFrom data stored = 0) :
    decodeStored stored = .clean data := by
  obtain ⟨e, he, hd⟩ := correction_of_near (show errorsFrom data stored ≤ 4 by omega)
  unfold decodeStored
  rw [he]
  dsimp only
  rw [hd, if_pos h]

theorem decodeStored_uncorrectable {stored : Stored} (h : ∀ data, 4 < errorsFrom data stored) :
    decodeStored stored = .uncorrectable := by
  unfold decodeStored
  rw [correction_of_far h]

/-- The completion of a drain's fill read: the outcome is counted, and reaches the drain (R32, R72 to R74). -/
theorem exec_fillReadComplete (stored : Stored) (hop : s.Reading op (.drain p)) (hd : s.drain? p = some d) :
    exec (.fillReadComplete op.id stored) s = .next (settle
      (fillOutcome d (decodeStored stored) (readOutcome op (decodeStored stored) (beginHappening s)))) := by
  have hread : (beginHappening s).readInFlight? op.id Requester.isDrain = some op := by
    have hfound : (beginHappening s).inFlight? op.id = some op := hop.found
    simp only [State.readInFlight?, hfound, Option.filter_some, hop.kind, hop.requester, Requester.isDrain, decide_true,
      Bool.and_self, if_true]
  have hdrain : (readOutcome op (decodeStored stored) (beginHappening s)).drainOf? op = some d := by
    simp only [State.drainOf?, hop.requester, State.drain?, readOutcome_frame]
    exact hd
  change Host.Outcome.next (settle (match (beginHappening s).readInFlight? op.id Requester.isDrain with
    | some op => _
    | none => beginHappening s)) = _
  rw [hread]
  dsimp only
  rw [hdrain]

/-- The completion of a drain's write: the outcome is counted, and reaches the drain (R36, R38, R72 to R74). -/
theorem exec_drainWriteComplete (report : WriteReport) (hop : s.Writing op (.drain p)) (hd : s.drain? p = some d) :
    exec (.drainWriteComplete op.id report) s = .next (settle
      (match report with
        | .stored => drainDone d (writeOutcome op .stored (beginHappening s))
        | .programFail => drainFails d (writeOutcome op .programFail (beginHappening s)))) := by
  have hwrite : (beginHappening s).writeInFlight? op.id Requester.isDrain = some op := by
    have hfound : (beginHappening s).inFlight? op.id = some op := hop.found
    simp only [State.writeInFlight?, hfound, Option.filter_some, hop.kind, hop.requester, Requester.isDrain, ne_eq,
      not_false_eq_true, decide_true, Bool.and_self, if_true]
  have hdrain : (writeOutcome op report (beginHappening s)).drainOf? op = some d := by
    simp only [State.drainOf?, hop.requester, State.drain?, writeOutcome_frame]
    exact hd
  change Host.Outcome.next (settle (match (beginHappening s).writeInFlight? op.id Requester.isDrain with
    | some op => _
    | none => beginHappening s)) = _
  rw [hwrite]
  dsimp only
  rw [hdrain]
  cases report <;> rfl

end

/-! ### Records and retire causes, where nothing stands in their way (R12, R83, R121) -/

section
variable {s : State}

theorem joinsAtOnce_of_room (hw : s.jrn.waiters = []) (hroom : s.jrn.staging.length < 16) : s.joinsAtOnce = true := by
  simp [State.joinsAtOnce, State.stagingRoom, Config.stagingPlaces, hw, hroom]

theorem joinsAtOnce_of_full (hfull : s.jrn.waiters ≠ [] ∨ 16 ≤ s.jrn.staging.length) : s.joinsAtOnce = false := by
  rcases hfull with h | h
  · simp [State.joinsAtOnce, h]
  · simp [State.joinsAtOnce, State.stagingRoom, Config.stagingPlaces, Nat.not_lt.mpr h]

/-- With room in the staging queue and no creator waiting, a record joins it at once (R121). -/
theorem handOver_joins (c : Creator) (r : JournalRecord) (hw : s.jrn.waiters = []) (hroom : s.jrn.staging.length < 16) :
    handOver c r s = s.setJrn { s.jrn with staging := s.jrn.staging ++ [⟨c, r, none⟩] } := by
  rw [handOver, if_pos (joinsAtOnce_of_room hw hroom)]
  rfl

/-- With the queue full or a creator waiting, a creator that does not wait yet becomes a waiting one; the first raises
JOURNAL_STALL (R122). -/
theorem handOver_waits {c : Creator} (r : JournalRecord) (hfull : s.jrn.waiters ≠ [] ∨ 16 ≤ s.jrn.staging.length)
    (hc : s.creatorWaits c = false) : handOver c r s = { s with
      jrn := { s.jrn with waiters := s.jrn.waiters ++ [⟨c, [r]⟩] }
      link := if s.jrn.waiters = [] then s.flagged .journalStall else s.link } := by
  have hjoins := joinsAtOnce_of_full hfull
  simp only [handOver, hjoins, waitWith, hc, Bool.false_eq_true, if_false]
  by_cases hw : s.jrn.waiters = []
  · simp [hw, raise, State.setLink, State.setJrn, State.flagged]
  · simp [hw, State.setJrn]

theorem not_running_of_stopping (h : s.unit.state = .drainLock ∨ s.unit.state = .closing) : s.running = false := by
  rcases h with h | h <;> simp [State.running, h]

/-- A retire cause of a MAPPED frame outside ONLINE and WRITE_PROTECTED marks the frame, and no request is made (R12, R83). -/
theorem retireCause_stopping {f : Nat} {r : FrameRecord} (reason : Reason) (hs : s.running = false)
    (hl : s.map.loaded = true) (hf : s.frame? f = some r) (hrole : r.role = .mapped) :
    retireCause f reason s = updFrame f (fun x => { x with wanted := true }) s := by
  have hs' : (updFrame f (fun x => { x with wanted := true }) s).running = false := hs
  simp only [retireCause, hf, hl, hrole, Bool.true_and, decide_true, if_true]
  cases r.owner with
  | none => rfl
  | some l => simp [retireRequest, hs']

end

/-! ### Fill reads (R32, R33) -/

/-- The drain of a place, with its line formed and its write requested. -/
theorem drainToWrite_eq {s : State} (hf : s.unit.state ≠ .failed) (hr : s.unit.state ≠ .reset) (d : Drain)
    (line : LineData) : drainToWrite d line s = { s with
      buf := { s.buf with
        drains := s.buf.drains.map fun x => if x.place = d.place then { x with formed := line, phase := .write } else x }
      media := { s.media with
        arriving := s.media.arriving ++ [⟨.drain, .drain d.place, .write (.data line), d.physical⟩] } } :=
  request_eq (s := updDrain d.place (fun x => { x with formed := line, phase := .write }) s) hf hr _

/-- An UNCORRECTABLE fill of an unpoisoned line, where the unit is stopping and POISON_SET joins at once (R33). -/
theorem fillOutcome_uncorrectable {s : State} {d : Drain} {r : FrameRecord} (hs : s.running = false)
    (hl : s.map.loaded = true) (hf : s.frame? (d.physical / 64) = some r) (hrole : r.role = .mapped)
    (hpoison : s.poisoned d.line = false) (hw : s.jrn.waiters = []) (hroom : s.jrn.staging.length < 16) :
    fillOutcome d .uncorrectable s = { s with
      buf := { s.buf with
        drains := s.buf.drains.map fun x => if x.place = d.place then
          { x with formed := overlay d.snapMask d.snapshot zeroLine, phase := .poisonWait } else x }
      map := { s.map with
        frames := s.map.frames.modify (d.physical / 64) fun x => { x with wanted := true } }
      jrn := { s.jrn with staging := s.jrn.staging ++ [⟨.drain d.place, .poisonSet d.line, none⟩] } } := by
  have hcause := retireCause_stopping .retireError hs hl hf hrole
  have hclear : ¬(updFrame (d.physical / 64) (fun x => { x with wanted := true }) s).poisoned d.line = true :=
    Bool.eq_false_iff.mp hpoison
  simp only [fillOutcome, ReadOutcome.delivered, frameOf, hcause]
  rw [if_neg hclear, handOver_joins]
  exacts [rfl, hw, hroom]

/-- Settles O32: the decoder's outcome, and what it leads to. -/
theorem fillReadFormsTheLine : Obligations.FillReadFormsTheLine := by
  intro p op d stored s hop hd hr hf
  obtain rfl := place_of_drain? hd
  refine ⟨fun data hdata => ?_, fun r hfar hpoison hstop hl hframe hrole hw hroom => ?_⟩
  · rw [exec_fillReadComplete stored hop hd, decodeStored_clean hdata, readOutcome_clean]
    refine congrArg (fun t => Host.Outcome.next (settle t)) ?_
    exact drainToWrite_eq (s := (beginHappening s).setMedia (s.freed op)) hf hr d _
  · rw [exec_fillReadComplete stored hop hd, decodeStored_uncorrectable hfar, readOutcome_uncorrectable]
    refine congrArg (fun t => Host.Outcome.next (settle t)) ?_
    exact fillOutcome_uncorrectable (not_running_of_stopping hstop.symm) hl hframe hrole hpoison hw hroom

end Sys2Proof.Machine
end

section
/-! SUPPORT. The completion of a drain's write (R36 to R39, R101, R107). -/

namespace Sys2Proof.Machine

/-! ### The migration in COMMIT_WAIT (R101) -/

/-- A change made only while the frame is in COMMIT_WAIT, said of the migration in progress. -/
theorem updMig_of_commitWait (l : Nat) (f : Migration → Migration) (s : State) :
    (if s.commitWaitOf l = true then updMig f s else s) = s.setMig { s.mig with
      current := s.mig.current.map fun m => if m.phase = .commitWait ∧ m.logical = l then f m else m } := by
  cases hcur : s.mig.current with
  | none =>
    have hmig : { s.mig with current := none } = s.mig := by rw [← hcur]
    simp only [State.commitWaitOf, hcur, Option.map_none, hmig, Bool.false_eq_true, if_false]
    rfl
  | some m =>
    by_cases hm : m.phase = .commitWait ∧ m.logical = l
    · simp [State.commitWaitOf, hcur, hm, updMig]
    · have hmig : { s.mig with current := some m } = s.mig := by rw [← hcur]
      have hfalse : s.commitWaitOf l = false := by simpa [State.commitWaitOf, hcur] using hm
      simp only [hfalse, Option.map_some, if_neg hm, hmig, Bool.false_eq_true, if_false]
      rfl

/-- A drain write completed while the line's frame is in COMMIT_WAIT makes the line late (R101). -/
theorem markLate_eq (line : Nat) (s : State) : markLate line s = s.setMig { s.mig with
    current := s.mig.current.map fun m => if m.phase = .commitWait ∧ m.logical = line / 64 then
        { m with
          lateMask := m.lateMask ||| 1#64 <<< (line % 64)
          lateSettled := m.lateSettled &&& ~~~(1#64 <<< (line % 64))
          lateCopy := m.lateCopy.map fun c => if c.line = line % 64 then { c with redrained := true } else c }
      else m } :=
  updMig_of_commitWait (line / 64) _ s

/-- A line's poison flag is cleared, in the pending mask too while its frame is in COMMIT_WAIT (R8, R101). -/
theorem setPoison_clear (line : Nat) (s : State) : setPoison line false s = { s with
    map := { s.map with
      entries := s.map.entries.modify (line / 64) fun x => { x with poison := x.poison &&& ~~~(1#64 <<< (line % 64)) } }
    mig := { s.mig with
      current := s.mig.current.map fun m => if m.phase = .commitWait ∧ m.logical = line / 64 then
          { m with pendingPoison := m.pendingPoison &&& ~~~(1#64 <<< (line % 64)) }
        else m } } :=
  updMig_of_commitWait (line / 64) _
    (updEntry (line / 64) (fun e => { e with poison := putFlag e.poison (indexOf line) false }) s)

/-! ### The slot that was drained (R30, R36) -/

theorem pressureAfter_eq (high low count : Nat) (on : Bool) : pressureAfter high low count on =
    if on = true then decide (low < count) else decide (high ≤ count) := by
  cases on
  · rfl
  · exact Bool.eq_iff_iff.mpr (by simp [pressureAfter])

/-- A slot freed leaves the others, and pressure mode judged on them (R30). -/
theorem freeSlot_eq (line : Nat) (s : State) : freeSlot line s = s.setBuf { s.buf with
    slots := s.buf.slots.filter fun x => x.line ≠ line
    pressure := if s.buf.pressure = true then
        decide (s.time.active.lowWater < (s.buf.slots.filter fun x => x.line ≠ line).length)
      else decide (s.time.active.highWater ≤ (s.buf.slots.filter fun x => x.line ≠ line).length) } := by
  simp only [freeSlot, evalPressure, pressureAfter_eq]
  rfl

theorem finishSlot_none {s : State} {line : Nat} {sl : Slot} (h : s.slot? line = some sl) (hr : sl.redirty = none) :
    finishSlot line s = freeSlot line s := by
  simp [finishSlot, h, hr]

theorem finishSlot_some {s : State} {line : Nat} {sl : Slot} {mark : RedirtyMark} (h : s.slot? line = some sl)
    (hr : sl.redirty = some mark) : finishSlot line s = updSlot line (redirtied mark) s := by
  simp [finishSlot, h, hr]

/-! ### The end of the drain (R37, R107) -/

theorem frame?_worn (s : State) (f : Nat) :
    (s.worn f).frames[f]? = (s.frame? f).map fun r => { r with wear := satRaise max32 r.wear } := by
  simp [State.worn, State.frame?]

/-- A frame whose wear stays below RetireWear reports no cause (R107). -/
theorem checkWear_of_less {s : State} {f : Nat}
    (h : ∀ r, s.frame? f = some r → r.role = .mapped → r.wear < s.retireWear) : checkWear f s = s := by
  unfold checkWear
  split
  · rename_i r hr
    split
    · rename_i hc
      simp only [Bool.and_eq_true, decide_eq_true_eq] at hc
      exact absurd hc.2 (Nat.not_le.mpr (h r hr hc.1))
    · rfl
  · rfl

/-- The wear raised by the write of a frame that is not worn out stays below RetireWear. -/
theorem checkWear_of_notWornOut {s v : State} {f : Nat} (h : s.NotWornOut f) (hframes : v.map.frames = (s.worn f).frames)
    (hwear : v.retireWear = s.retireWear) : checkWear f v = v := by
  refine checkWear_of_less fun r hr hrole => ?_
  rw [State.frame?, hframes, frame?_worn] at hr
  obtain ⟨r', hr', rfl⟩ := Option.map_eq_some_iff.mp hr
  rw [hwear]
  exact h r' hr' hrole

/-- The drain of a line that was not poisoned at issue, or not written in full, ends (R36). -/
theorem endOrClear_ends {d : Drain} (h : d.poisoned = false ∨ d.snapMask ≠ fullMask) (s : State) :
    endOrClear d s = endDrain d.place s := by
  have hplain : ¬(d.poisoned && d.snapMask = fullMask) = true := by
    rcases h with h | h <;> simp [h]
  rw [endOrClear, if_neg hplain]

section
variable {d : Drain} {s : State} (hpoisoned : d.poisoned = true) (hfull : d.snapMask = fullMask)
include hpoisoned hfull

/-- The full write of a poisoned line clears it, and ends the drain where POISON_CLEAR joins at once (R37). -/
theorem endOrClear_joins (hw : s.jrn.waiters = []) (hroom : s.jrn.staging.length < 16) : endOrClear d s =
    endDrain d.place ((setPoison d.line false s).setJrn { s.jrn with
      staging := s.jrn.staging ++ [⟨.drain d.place, .poisonClear d.line, none⟩] }) := by
  have hjrn : (setPoison d.line false s).jrn = s.jrn := by simp
  rw [← hjrn] at hw hroom ⊢
  have hjoins : (setPoison d.line false s).joinsAtOnce = true := joinsAtOnce_of_room hw hroom
  simp only [endOrClear, hpoisoned, hfull, hjoins, decide_true, Bool.and_self, if_true]
  rw [handOver_joins _ _ hw hroom]

/-- Where POISON_CLEAR must wait, the drain keeps its place in CLEAR_WAIT (R37, R122). -/
theorem endOrClear_waits (hq : s.jrn.waiters ≠ [] ∨ 16 ≤ s.jrn.staging.length) : endOrClear d s =
    handOver (.drain d.place) (.poisonClear d.line)
      (updDrain d.place (fun x => { x with phase := .clearWait }) (setPoison d.line false s)) := by
  have hjrn : (setPoison d.line false s).jrn = s.jrn := by simp
  rw [← hjrn] at hq
  have hjoins := joinsAtOnce_of_full hq
  simp only [endOrClear, hpoisoned, hfull, hjoins, decide_true, Bool.and_self, if_true, Bool.false_eq_true, if_false]

end

/-- Settles O33: the stored write of a drain, step by step of R36, R37 and R101. -/
theorem drainWriteStoredEndsTheDrain : Obligations.DrainWriteStoredEndsTheDrain := by
  rintro p op d sl s hop hd hsl hphysical hwear i bit current buf health rfl rfl hcurrent hbuf hhealth
  obtain rfl := place_of_drain? hd
  have hdrains : buf.drains = s.buf.drains := by
    cases hred : sl.redirty <;> simp [hbuf, hred]
  have hfinish : ∀ v : State, v.buf = s.buf → v.time = s.time → finishSlot d.line v = v.setBuf buf := by
    intro v hvb hvt
    have hv : v.slot? d.line = some sl := by rw [State.slot?, hvb]; exact hsl
    cases hred : sl.redirty with
    | none => rw [finishSlot_none hv hred, freeSlot_eq, hvb, hvt, hbuf, hred]
    | some mark => simp [finishSlot_some hv hred, updSlot, hvb, hbuf, hred, redirtied]
  have hdone : drainDone d (writeOutcome op .stored (beginHappening s)) =
      checkWear (d.physical / 64) (endOrClear d { s with
        out := Outputs.none
        map := s.worn (d.physical / 64)
        mig := { s.mig with current := current }
        health := health
        media := s.freed op
        buf := buf }) := by
    simp only [drainDone, markLate_eq, writeOutcome_stored, hphysical, frameOf]
    rw [hfinish, hcurrent, hhealth] <;> rfl
  have hexec : ∀ v : State, endOrClear d { s with
        out := Outputs.none
        map := s.worn (d.physical / 64)
        mig := { s.mig with current := current }
        health := health
        media := s.freed op
        buf := buf } = v → v.map.frames = (s.worn (d.physical / 64)).frames → v.retireWear = s.retireWear →
      exec (.drainWriteComplete op.id .stored) s = .next (settle v) := by
    intro v hv hframes hretire
    rw [exec_drainWriteComplete .stored hop hd]
    dsimp only
    rw [hdone, hv, checkWear_of_notWornOut hwear hframes hretire]
  refine ⟨fun hplain => hexec _ ?_ rfl rfl, ?_⟩
  · rw [endOrClear_ends hplain, ← hdrains]
    rfl
  · rintro hpoisoned hfull u rfl
    refine ⟨fun hw hroom => hexec _ ?_ rfl rfl, fun hq hc => hexec _ ?_ rfl rfl⟩
    · rw [endOrClear_joins hpoisoned hfull, setPoison_clear, ← hdrains]
      exacts [rfl, hw, hroom]
    · rw [endOrClear_waits hpoisoned hfull, setPoison_clear, handOver_waits, ← hdrains]
      exacts [rfl, hq, hc, hq]

end Sys2Proof.Machine
end

section
/-! SUPPORT. A drain's write that fails to program: the slot returned once, and lost the second time (R38, R39). -/

namespace Sys2Proof.Machine

section
variable {s : State}

/-- An update that keeps the retire-overdue mark of a frame keeps which logical frames are retire-overdue. -/
theorem overdueFrame_updFrame {g : FrameRecord → FrameRecord} (hg : ∀ x, (g x).overdue = x.overdue) (f l : Nat) :
    (updFrame f g s).overdueFrame l = s.overdueFrame l := by
  have hentry : (updFrame f g s).entry? l = s.entry? l := rfl
  simp only [State.overdueFrame, hentry, updFrame_frame?]
  cases s.entry? l with
  | none => rfl
  | some e =>
    dsimp only
    split
    · cases s.frame? e.frame <;> simp [hg]
    · rfl

/-- A retire cause of a MAPPED frame whose owner is neither overdue, moving nor queued joins the retire class, where the
queue has room (R83, Table 5.2). -/
theorem retireCause_joins {f owner : Nat} {r : FrameRecord} (reason : Reason) (hs : s.running = true)
    (hl : s.map.loaded = true) (hf : s.frame? f = some r) (hrole : r.role = .mapped) (howner : r.owner = some owner)
    (hoverdue : s.overdueFrame owner = false) (hmoving : s.mig.isMoving owner = false)
    (hqueued : s.mig.isQueued owner = false) (hroom : s.mig.queued < 8) :
    retireCause f reason s = joinRetire ⟨owner, reason⟩ (updFrame f (fun x => { x with wanted := true }) s) := by
  have hoverdue' : (updFrame f (fun x => { x with wanted := true }) s).overdueFrame owner = false := by
    rw [overdueFrame_updFrame]
    exacts [hoverdue, fun _ => rfl]
  have hs' : (updFrame f (fun x => { x with wanted := true }) s).running = true := hs
  simp only [MigrationEngine.isQueued, Bool.or_eq_false_iff] at hqueued
  have hroom' : s.mig.room = true := decide_eq_true hroom
  simp only [retireCause, hf, hl, hrole, howner, Bool.true_and, decide_true, if_true, retireRequest, hs', handleRetire,
    hoverdue', updFrame_frame, hmoving, hqueued.1, hqueued.2, hroom', Bool.false_eq_true, if_false]

theorem markLate_of_not_commitWait {line : Nat} (h : s.commitWaitOf (line / 64) = false) : markLate line s = s := by
  have h : s.commitWaitOf (frameOf line) = false := h
  simp [markLate, h]

/-- The first fail of a slot, where the unit is stopping, places no fail mark (R38). -/
theorem drainFailOnce_stopping (hs : s.running = false) (d : Drain) : drainFailOnce d s = endDrain d.place
    (updSlot d.line (fun x => { x with draining := false, failedOnce := true, redirty := none }) s) := by
  have hs' : (endDrain d.place (updSlot d.line (fun x =>
    { x with draining := false, failedOnce := true, redirty := none }) s)).running = false := hs
  simp only [drainFailOnce, hs', Bool.false_and, Bool.false_eq_true, if_false]

/-- The first fail of a slot in ONLINE and WRITE_PROTECTED places the fail mark, but for a retire-overdue frame (R38). -/
theorem drainFailOnce_running {d : Drain} {r : FrameRecord} (hs : s.running = true)
    (hf : s.frame? (d.physical / 64) = some r) (hr : r.overdue = false) : drainFailOnce d s =
    setFailMark (d.line / 64) true (endDrain d.place
      (updSlot d.line (fun x => { x with draining := false, failedOnce := true, redirty := none }) s)) := by
  have hs' : (endDrain d.place (updSlot d.line (fun x =>
    { x with draining := false, failedOnce := true, redirty := none }) s)).running = true := hs
  have hf' : (endDrain d.place (updSlot d.line (fun x =>
    { x with draining := false, failedOnce := true, redirty := none }) s)).frame? (frameOf d.physical) = some r := hf
  simp only [drainFailOnce, hs', hf', hr, Option.map_some, Option.getD_some, Bool.not_false, Bool.and_self, if_true]
  rfl

/-- The slots of other lines do not see an update of a line's slot. -/
theorem filter_updSlot {f : Slot → Slot} (hf : ∀ x, (f x).line = x.line) (line : Nat) (l : List Slot) :
    (l.map fun x => if x.line = line then f x else x).filter (fun x => x.line ≠ line) =
      l.filter fun x => x.line ≠ line := by
  induction l with
  | nil => rfl
  | cons x l ih => by_cases hx : x.line = line <;> simp_all

theorem freeSlot_updSlot {f : Slot → Slot} (hf : ∀ x, (f x).line = x.line) (line : Nat) :
    freeSlot line (updSlot line f s) = freeSlot line s := by
  simp only [freeSlot_eq, updSlot, State.setBuf_buf, State.setBuf_time, filter_updSlot hf]
  rfl

/-- The second fail of a slot whose line is poisoned already: its writes are lost at once (R38). -/
theorem drainLoses_poisoned {d : Drain} (h : s.poisoned d.line = true) : drainLoses d s = { s with
    health := { s.health with lostWrites := satRaise max32 s.health.lostWrites }
    link := s.flagged .poisonCreated
    buf := { s.buf with
      drains := s.buf.drains.filter fun x => x.place ≠ d.place
      slots := s.buf.slots.filter fun x => x.line ≠ d.line
      pressure :=
        if s.buf.pressure = true then
          decide (s.time.active.lowWater < (s.buf.slots.filter fun x => x.line ≠ d.line).length)
        else decide (s.time.active.highWater ≤ (s.buf.slots.filter fun x => x.line ≠ d.line).length) } } := by
  have h' : (updSlot d.line (fun x => { x with data := zeroLine, valid := 0#64, redirty := none }) s).poisoned d.line =
    true := h
  unfold drainLoses
  dsimp only
  rw [if_pos h', freeSlot_updSlot, freeSlot_eq]
  exacts [rfl, fun _ => rfl]

/-- The second fail of a slot whose line is not poisoned: the loss waits for its POISON_SET record (R39). -/
theorem drainLoses_unpoisoned {d : Drain} (h : s.poisoned d.line = false) (hw : s.jrn.waiters = [])
    (hroom : s.jrn.staging.length < 16) : drainLoses d s = { s with
    buf := { s.buf with
      drains := s.buf.drains.map fun x => if x.place = d.place then { x with phase := .losing } else x
      slots := s.buf.slots.map fun x =>
        if x.line = d.line then { x with data := zeroLine, valid := 0#64, redirty := none } else x }
    jrn := { s.jrn with staging := s.jrn.staging ++ [⟨.drain d.place, .poisonSet d.line, none⟩] } } := by
  have h' : (updSlot d.line (fun x => { x with data := zeroLine, valid := 0#64, redirty := none }) s).poisoned d.line =
    false := h
  simp only [drainLoses, h', Bool.false_eq_true, if_false]
  rw [handOver_joins]
  exacts [rfl, hw, hroom]

/-- What a drain's failed write does once its retire cause is reported, by how often its slot has failed (R38). -/
theorem drainFails_eq {d : Drain} {sl : Slot} {v : State} (hcause : retireCause (d.physical / 64) .retireProgram s = v)
    (hlate : v.commitWaitOf (d.line / 64) = false) (hsl : v.slot? d.line = some sl) :
    drainFails d s = if sl.failedOnce = true then drainLoses d v else drainFailOnce d v := by
  have hcause : retireCause (frameOf d.physical) .retireProgram s = v := hcause
  simp only [drainFails, hcause, markLate_of_not_commitWait hlate, hsl, Option.map_some, Option.getD_some]

end

/-- Settles O34: the retire cause, and then the first or the second fail of the slot. -/
theorem programFailOfADrainReturnsOrLosesTheSlot : Obligations.ProgramFailOfADrainReturnsOrLosesTheSlot := by
  intro p op d sl r s hop hd hsl hlate hphysical hframe hrole hl u stopping hstopping hu
  obtain rfl := place_of_drain? hd
  have hwritten : (writeOutcome op .programFail (beginHappening s)).frame? (d.physical / 64) =
      some { r with wear := satRaise max32 r.wear } := by
    rw [writeOutcome_programFail, hphysical]
    exact (frame?_worn s _).trans (congrArg _ hframe)
  have hmarked : updFrame (d.physical / 64) (fun x => { x with wanted := true })
      (writeOutcome op .programFail (beginHappening s)) = u := by
    have hframes : (s.worn (d.physical / 64)).frames.modify (d.physical / 64) (fun x => { x with wanted := true }) =
        s.map.frames.modify (d.physical / 64) fun x => { x with wear := satRaise max32 x.wear, wanted := true } :=
      List.modify_modify_eq _ _ _ _
    rw [hu, ← hframes, writeOutcome_programFail, hphysical]
    rfl
  have hexec : ∀ v, retireCause (d.physical / 64) .retireProgram (writeOutcome op .programFail (beginHappening s)) = v →
      v.mig.current = s.mig.current → v.buf = s.buf → exec (.drainWriteComplete op.id .programFail) s =
        .next (settle (if sl.failedOnce = true then drainLoses d v else drainFailOnce d v)) := by
    intro v hv hcurrent hbuf
    rw [exec_drainWriteComplete .programFail hop hd]
    dsimp only
    rw [drainFails_eq hv (by rw [State.commitWaitOf, hcurrent]; exact hlate) (by rw [State.slot?, hbuf]; exact hsl)]
  have hstop : stopping → exec (.drainWriteComplete op.id .programFail) s =
      .next (settle (if sl.failedOnce = true then drainLoses d u else drainFailOnce d u)) := fun hs =>
    hexec u ((retireCause_stopping (s := writeOutcome op .programFail (beginHappening s)) .retireProgram
      (not_running_of_stopping (s := s) (hstopping.mp hs)) hl hwritten hrole).trans hmarked) (by rw [hu]) (by rw [hu])
  refine ⟨fun buf hfirst hbuf => ⟨fun hs => ?_, fun owner hs hnot howner hoverdue hmoving hqueued hroom => ?_⟩,
    fun hs hsecond hpoison => ?_, fun hs hsecond hpoison hw hroom => ?_⟩
  · have hstopped : u.running = false := by rw [hu]; exact not_running_of_stopping (hstopping.mp hs)
    rw [hstop hs, if_neg (by simp [hfirst]), drainFailOnce_stopping hstopped, hbuf, hu]
    rfl
  · have hoverdue : (writeOutcome op .programFail (beginHappening s)).overdueFrame owner = false :=
      (overdueFrame_updFrame (s := s) (g := fun x => { x with wear := satRaise max32 x.wear }) (fun _ => rfl) _
        owner).trans hoverdue
    have hjoins := retireCause_joins (s := writeOutcome op .programFail (beginHappening s))
      .retireProgram hs hl hwritten hrole howner hoverdue hmoving hqueued hroom
    rw [hmarked] at hjoins
    rw [hexec _ hjoins (by rw [hu]; rfl) (by rw [hu]; rfl), if_neg (by simp [hfirst]),
      drainFailOnce_running (s := joinRetire _ u) (r := { r with wear := satRaise max32 r.wear, wanted := true })
        (by rw [hu]; exact hs) (by rw [← hmarked]; exact (updFrame_frame? _ _ _ _).trans (by simp [hwritten])) hnot,
      hbuf, hu]
    rfl
  · rw [hstop hs, if_pos hsecond, drainLoses_poisoned (by rw [hu]; exact hpoison), hu]
    rfl
  · rw [hstop hs, if_pos hsecond, drainLoses_unpoisoned (by rw [hu]; exact hpoison) (by rw [hu]; exact hw)
      (by rw [hu]; exact hroom), hu]

end Sys2Proof.Machine
end

section
/-! SUPPORT. The arrival of host requests: the checks every request meets, the entry a request takes, the service of a READ
and the acceptance of a WRITE (R45 to R58). -/

namespace Sys2Proof.Machine

/-! ### The checks on arrival (R46, R47, R49) -/

section
variable {tag : BitVec 5} {s t : State}

/-- The states in which requests are served are those in which they are received and not answered NOT_READY (Table 3.3). -/
theorem serves_iff : s.serves ↔ s.unit.state ≠ .reset ∧ s.notReady = false := by
  cases h : s.unit.state <;> simp [State.serves, State.notReady, h]

theorem notReady_iff : s.notReady = true ↔ s.unit.state ∈ [.unformatted, .formatting, .recovering, .failed] ∨
    (s.unit.state = .safe ∧ s.map.loaded = false) := by
  simp [State.notReady, or_assoc]

theorem not_reset_of_notReady (h : s.notReady = true) : s.unit.state ≠ .reset := by
  intro hs
  simp [State.notReady, hs] at h

theorem not_stopped_of_serves (h : s.serves) : s.unit.state ≠ .failed ∧ s.unit.state ≠ .reset := by
  constructor <;> intro hs <;> simp [State.serves, hs] at h

theorem arrivalCheck_reset (hr : s.unit.state = .reset) : arrivalCheck tag s = some s := by
  rw [arrivalCheck, if_pos hr]

theorem arrivalCheck_occupied (hr : s.unit.state ≠ .reset) (ho : s.occupied tag = true) :
    arrivalCheck tag s = some (raise .hostProtocol s) := by
  rw [arrivalCheck, if_neg hr, if_pos ho]

theorem arrivalCheck_notReady (ho : s.occupied tag = false) (hn : s.notReady = true) :
    arrivalCheck tag s = some (sendHost tag .notReady zeroLine s) := by
  simp only [arrivalCheck, if_neg (not_reset_of_notReady hn), ho, hn, Bool.false_eq_true, if_false, if_true]

theorem arrivalCheck_serves (hs : s.serves) (ho : s.occupied tag = false) : arrivalCheck tag s = none := by
  obtain ⟨hr, hn⟩ := serves_iff.mp hs
  simp only [arrivalCheck, if_neg hr, ho, hn, Bool.false_eq_true, if_false]

theorem fenced_iff (s : State) (line : Nat) : s.fenced line = true ↔ s.activeFence ≤ line / 64 :=
  decide_eq_true_iff

theorem exec_hostRead (tag : BitVec 5) (line : BitVec 26) (s : State) : exec (.hostRead tag line) s =
    .next (settle (hostReadArrives tag line.toNat (beginHappening s))) := rfl

theorem exec_hostWrite (tag : BitVec 5) (line : BitVec 26) (mask : Flags64) (data : LineData) (s : State) :
    exec (.hostWrite tag line mask data) s =
      .next (settle (hostWriteArrives tag line.toNat mask data (beginHappening s))) := rfl

theorem exec_hostPersist (tag : BitVec 5) (line : BitVec 26) (s : State) : exec (.hostPersist tag line) s =
    .next (settle (hostPersistArrives tag line.toNat (beginHappening s))) := rfl

theorem exec_hostUnknownKind (tag : BitVec 5) (line : BitVec 26) (s : State) : exec (.hostUnknownKind tag line) s =
    .next (settle (hostUnknownArrives (beginHappening s))) := rfl

/-- What an arrival check answers is the request's own effect, whatever the request asks for. -/
theorem exec_of_arrivalCheck (line : BitVec 26) (mask : Flags64) (data : LineData)
    (h : arrivalCheck tag (beginHappening s) = some t) :
    ∀ c ∈ [Instr.hostRead tag line, .hostWrite tag line mask data, .hostPersist tag line],
      exec c s = .next (settle t) := by
  intro c hc
  simp only [List.mem_cons, List.not_mem_nil, or_false] at hc
  rcases hc with rfl | rfl | rfl
  · rw [exec_hostRead, hostReadArrives, h]
  · rw [exec_hostWrite, hostWriteArrives, h]
  · rw [exec_hostPersist, hostPersistArrives, h]

/-- A response of no data that opens a happening. -/
theorem sendHost_beginHappening {code : HostCode} (hc : code ≠ .data) (tag : BitVec 5) (s : State) :
    sendHost tag code zeroLine (beginHappening s) = { s with out := oneResponse tag code zeroLine } := by
  simp only [sendHost, if_neg hc]
  rfl

/-- A READ or WRITE at or above the fence is answered FENCED (R49). -/
theorem exec_of_fenced (line : BitVec 26) (mask : Flags64) (data : LineData) (hs : s.serves)
    (ho : s.occupied tag = false) (hf : s.activeFence ≤ line.toNat / 64) :
    ∀ c ∈ [Instr.hostRead tag line, .hostWrite tag line mask data],
      exec c s = .next (settle { s with out := oneResponse tag .fenced zeroLine }) := by
  have hcheck : arrivalCheck tag (beginHappening s) = none := arrivalCheck_serves (s := beginHappening s) hs ho
  have hfenced : (beginHappening s).fenced line.toNat = true := (fenced_iff _ _).mpr hf
  intro c hc
  simp only [List.mem_cons, List.not_mem_nil, or_false] at hc
  rcases hc with rfl | rfl
  · rw [exec_hostRead, hostReadArrives, hcheck]
    dsimp only
    rw [if_pos hfenced, sendHost_beginHappening (by decide)]
  · rw [exec_hostWrite, hostWriteArrives, hcheck]
    dsimp only
    rw [if_pos hfenced, sendHost_beginHappening (by decide)]

end

/-- Settles O21: each clause is an outcome of the checks, in their order. -/
theorem hostRequestsMeetTheArrivalChecks : Obligations.HostRequestsMeetTheArrivalChecks := by
  intro tag line mask data s
  refine ⟨fun hr => ?_, fun hr => ?_, fun hr ho => ?_, fun hn ho => ?_, exec_of_fenced line mask data⟩
  · have hkinds := exec_of_arrivalCheck (s := s) line mask data (arrivalCheck_reset (tag := tag) hr)
    have hunknown : hostUnknownArrives (beginHappening s) = beginHappening s := if_pos hr
    intro c hc
    rcases List.mem_append.mp (show c ∈ [_, _, _] ++ [_] from hc) with hc | hc
    · exact hkinds c hc
    · rw [List.mem_singleton.mp hc, exec_hostUnknownKind, hunknown]
      rfl
  · rw [exec_hostUnknownKind, hostUnknownArrives, if_neg (show (beginHappening s).unit.state ≠ .reset from hr)]
    rfl
  · exact exec_of_arrivalCheck line mask data (arrivalCheck_occupied hr ho)
  · rw [← sendHost_beginHappening (by decide)]
    exact exec_of_arrivalCheck line mask data (arrivalCheck_notReady ho (notReady_iff.mpr hn))

/-! ### A request that passes the checks -/

section
variable {tag : BitVec 5} {line : BitVec 26} {s : State}

theorem exec_hostRead_passes (hp : s.Passes tag line.toNat) :
    exec (.hostRead tag line) s = .next (settle (arriveRead tag line.toNat (beginHappening s))) := by
  have hfenced : ¬(beginHappening s).fenced line.toNat = true := fun h =>
    absurd ((fenced_iff _ _).mp h) (Nat.not_le.mpr hp.visible)
  rw [exec_hostRead, hostReadArrives, arrivalCheck_serves (s := beginHappening s) hp.serves hp.free]
  dsimp only
  rw [if_neg hfenced]

theorem exec_hostWrite_passes (mask : Flags64) (data : LineData) (hp : s.Passes tag line.toNat) :
    exec (.hostWrite tag line mask data) s = .next (settle
      (if s.unit.state = .online then arriveWrite tag line.toNat mask data (beginHappening s)
      else { s with out := oneResponse tag .refused zeroLine })) := by
  have hfenced : ¬(beginHappening s).fenced line.toNat = true := fun h =>
    absurd ((fenced_iff _ _).mp h) (Nat.not_le.mpr hp.visible)
  rw [exec_hostWrite, hostWriteArrives, arrivalCheck_serves (s := beginHappening s) hp.serves hp.free]
  dsimp only
  rw [if_neg hfenced, sendHost_beginHappening (by decide)]
  rfl

theorem exec_hostPersist_serves (line : BitVec 26) (hs : s.serves) (hfree : s.occupied tag = false) :
    exec (.hostPersist tag line) s = .next (settle (arrivePersist tag line.toNat (beginHappening s))) := by
  rw [exec_hostPersist, hostPersistArrives, arrivalCheck_serves (s := beginHappening s) hs hfree]

end

/-! ### The entry of an arriving request (R45) -/

section
variable {s : State} {e : TagEntry}

theorem tag_ne_of_free {tag : BitVec 5} (hfree : s.occupied tag = false) {x : TagEntry} (hx : x ∈ s.host.entries) :
    x.tag ≠ tag := by
  simp only [State.occupied, List.any_eq_false, decide_eq_true_eq] at hfree
  exact hfree x hx

/-- The entry of a request that is answered on arrival leaves no trace. -/
theorem removeEntry_addEntry (hfree : s.occupied e.tag = false) : removeEntry e.tag (addEntry e s) = s := by
  have hkept : s.host.entries.filter (fun x => x.tag ≠ e.tag) = s.host.entries :=
    List.filter_eq_self.mpr fun x hx => decide_eq_true (tag_ne_of_free hfree hx)
  have hentries : (s.host.entries ++ [e]).filter (fun x => x.tag ≠ e.tag) = s.host.entries := by
    rw [List.filter_append, hkept]
    simp
  simp only [removeEntry, addEntry, State.setHost_host, hentries]
  rfl

theorem answer_addEntry (code : HostCode) (data : LineData) (hfree : s.occupied e.tag = false) :
    answer e.tag code data (addEntry e s) = sendHost e.tag code data s := by
  rw [answer, removeEntry_addEntry hfree]

/-- Of the entries, an update of an arriving request's tag reaches the new one alone. -/
theorem map_entries_append (f : TagEntry → TagEntry) (hfree : s.occupied e.tag = false) :
    (s.host.entries ++ [e]).map (fun x => if x.tag = e.tag then f x else x) = s.host.entries ++ [f e] := by
  have hkept : s.host.entries.map (fun x => if x.tag = e.tag then f x else x) = s.host.entries :=
    (List.map_congr_left fun x hx => if_neg (tag_ne_of_free hfree hx)).trans (List.map_id _)
  rw [List.map_append, hkept]
  simp

theorem setStanding_addEntry (st : TagStanding) (hfree : s.occupied e.tag = false) :
    setStanding e.tag st (addEntry e s) = addEntry { e with standing := st } s := by
  simp only [setStanding, addEntry, State.setHost_host, map_entries_append _ hfree]
  rfl

/-- The entries before an arriving request are those that stood in the table. -/
theorem entriesBefore_append (hfree : s.occupied e.tag = false) :
    entriesBefore e.tag (s.host.entries ++ [e]) = s.host.entries := by
  rw [entriesBefore, List.takeWhile_append_of_pos fun x hx => decide_eq_true (tag_ne_of_free hfree hx)]
  simp

end

end Sys2Proof.Machine
end

section
/-! SUPPORT. The service of an arriving READ (R50 to R53, Table 3.4). -/

namespace Sys2Proof.Machine

section
variable {s : State} {line : Nat}

/-! ### The slot of a line, full or not (R51, R53) -/

theorem fullSlot?_some {sl : Slot} (hsl : s.slot? line = some sl) (hfull : sl.valid = fullMask) :
    (s.slot? line).filter Slot.full = some sl := by
  simp [hsl, Slot.full, hfull]

theorem fullSlot?_none_iff : (s.slot? line).filter Slot.full = none ↔
    ∀ sl, s.slot? line = some sl → sl.valid ≠ fullMask := by
  simp [Option.filter_eq_none_iff, Slot.full]

/-! ### Answers to READs (R50, R188) -/

/-- With every held answer behind a READ in service, none is released (R50). -/
theorem releaseHeld_of_wait (h : s.HeldAnswersWait) : releaseHeld s = s := by
  rw [releaseHeld, show releasableIn [] s.host.entries = [] from h]
  rfl

theorem sendHost_eq {code : HostCode} {data : LineData} (hdata : code = .data ∨ data = zeroLine) (tag : BitVec 5)
    (s : State) : sendHost tag code data s = { s with
      out := { s.out with host := s.out.host ++ [⟨tag, code, data⟩] } } := by
  have hfield : (if code = .data then data else zeroLine) = data := by
    rcases hdata with h | h <;> simp [h]
  simp only [sendHost, hfield]
  rfl

/-- A READ answered on arrival sends its answer alone. -/
theorem answerRead_arrives {e : TagEntry} {code : HostCode} {data : LineData} (hdata : code = .data ∨ data = zeroLine)
    (hfree : s.occupied e.tag = false) (hwait : s.HeldAnswersWait) :
    answerRead e.tag code data (addEntry e (beginHappening s)) = { s with out := oneResponse e.tag code data } := by
  rw [answerRead, answer_addEntry (s := beginHappening s) code data hfree, releaseHeld_of_wait, sendHost_eq hdata]
  · rfl
  · exact hwait

/-! ### The branches of Table 3.4 -/

theorem serveRead_full {sl : Slot} (tag : BitVec 5) (hsl : s.slot? line = some sl) (hfull : sl.valid = fullMask) :
    serveRead tag line s = answerRead tag .data sl.data s := by
  rw [serveRead, fullSlot?_some hsl hfull]

section
variable (tag : BitVec 5) (hpartly : ∀ sl, s.slot? line = some sl → sl.valid ≠ fullMask)
include hpartly

theorem serveRead_losing (hl : s.losing line = true) : serveRead tag line s = setStanding tag (.reading true) s := by
  simp only [serveRead, fullSlot?_none_iff.mpr hpartly, hl, if_true]

theorem serveRead_poisoned (hl : s.losing line = false) (hpoison : s.poisoned line = true) :
    serveRead tag line s = answerRead tag .poison zeroLine s := by
  simp only [serveRead, fullSlot?_none_iff.mpr hpartly, hl, hpoison, Bool.false_eq_true, if_false, if_true]

theorem serveRead_medium (hl : s.losing line = false) (hpoison : s.poisoned line = false) : serveRead tag line s =
    request (hostReadRequest tag (s.physicalOf line)) (setStanding tag (.reading false) s) := by
  simp only [serveRead, fullSlot?_none_iff.mpr hpartly, hl, hpoison, Bool.false_eq_true, if_false]

end

/-! ### The service of an arriving READ (R51) -/

theorem arriveRead_waits (tag : BitVec 5) (hw : s.earlierWriteWaits line = true) :
    arriveRead tag line s = addEntry ⟨tag, .read, line, 0#64, zeroLine, .waiting⟩ s := by
  rw [arriveRead, if_pos hw]

theorem arriveRead_serves (tag : BitVec 5) (hw : s.earlierWriteWaits line = false) : arriveRead tag line s =
    serveRead tag line (addEntry ⟨tag, .read, line, 0#64, zeroLine, .waiting⟩ s) := by
  rw [arriveRead, if_neg (by simp [hw])]

section
variable {e : TagEntry} (hfree : s.occupied e.tag = false)
include hfree

/-- A READ that waits for the loss of its line's writes keeps its entry (R52). -/
theorem serveRead_arrives_losing (hpartly : ∀ sl, s.slot? line = some sl → sl.valid ≠ fullMask)
    (hl : s.losing line = true) : serveRead e.tag line (addEntry e s) = addEntry { e with standing := .reading true } s :=
  (serveRead_losing (s := addEntry e s) e.tag hpartly hl).trans (setStanding_addEntry _ hfree)

/-- A READ that the buffer and the poison flag do not answer requests its line's physical line (R53). -/
theorem serveRead_arrives_medium (hs : s.serves) (hpartly : ∀ sl, s.slot? line = some sl → sl.valid ≠ fullMask)
    (hl : s.losing line = false) (hpoison : s.poisoned line = false) :
    serveRead e.tag line (addEntry e s) =
      (addEntry { e with standing := .reading false } s).setMedia { s.media with
        arriving := s.media.arriving ++ [hostReadRequest e.tag (s.physicalOf line)] } := by
  obtain ⟨hf, hr⟩ := not_stopped_of_serves hs
  rw [serveRead_medium (s := addEntry e s) e.tag hpartly hl hpoison, setStanding_addEntry _ hfree, request_eq]
  exacts [rfl, hf, hr]

end

end

/-- Settles O22: the wait behind a waiting write, and then the branches of Table 3.4 for the new entry. -/
theorem hostReadIsDecidedAtItsService : Obligations.HostReadIsDecidedAtItsService := by
  intro tag line s hp hwait
  obtain ⟨e, he⟩ : ∃ e : TagEntry, e = ⟨tag, .read, line.toNat, 0#64, zeroLine, .waiting⟩ := ⟨_, rfl⟩
  obtain rfl : e.tag = tag := by rw [he]
  have hserved (hw : s.earlierWriteWaits line.toNat = false) {t : State}
      (ht : serveRead e.tag line.toNat (addEntry e (beginHappening s)) = t) :
      exec (.hostRead e.tag line) s = .next (settle t) := by
    rw [exec_hostRead_passes hp, arriveRead_serves (s := beginHappening s) e.tag hw, ← he, ht]
  refine ⟨fun hw => ?_, fun sl hw hsl hfull => ?_, fun hw hpartly => ⟨fun hl => ?_, fun hl hpoison => ?_,
    fun hl hpoison => ?_⟩⟩
  · rw [exec_hostRead_passes hp, arriveRead_waits (s := beginHappening s) e.tag hw]
    rfl
  · refine hserved hw (Eq.trans ?_ (answerRead_arrives (.inl rfl) hp.free hwait))
    exact serveRead_full (s := addEntry e (beginHappening s)) e.tag hsl hfull
  · refine hserved hw ((serveRead_arrives_losing (s := beginHappening s) hp.free hpartly hl).trans ?_)
    rw [he]
    rfl
  · refine hserved hw (Eq.trans ?_ (answerRead_arrives (.inr rfl) hp.free hwait))
    exact serveRead_poisoned (s := addEntry e (beginHappening s)) e.tag hpartly hl hpoison
  · refine hserved hw ((serveRead_arrives_medium (s := beginHappening s) hp.free hp.serves hpartly hl hpoison).trans ?_)
    rw [he]
    rfl

end Sys2Proof.Machine
end

section
/-! SUPPORT. The acceptance of writes, on arrival and from the wait queue (R23, R24, R50, R55 to R58). -/

namespace Sys2Proof.Machine

/-! ### Taking and merging (R23, R24, R30) -/

section
variable {s : State} {e : TagEntry}

/-- A slot taken from FREE is the last of the slots, and pressure mode is judged with it (R23, R30). -/
theorem takeSlot_eq (line : Nat) (mask : Flags64) (data : LineData) (seq : Word32) (s : State) :
    takeSlot line mask data seq s = s.setBuf { s.buf with
      slots := s.buf.slots ++ [
        { line := line, draining := false, data := overlay mask data zeroLine, valid := mask, stamp := s.time.tick,
          oldest := seq, newest := seq, redirty := none, failedOnce := false }]
      pressure :=
        if s.buf.pressure = true then decide (s.time.active.lowWater < s.buf.slots.length + 1)
        else decide (s.time.active.highWater ≤ s.buf.slots.length + 1) } := by
  simp only [takeSlot, evalPressure, pressureAfter_eq, State.setBuf_buf, List.length_append, List.length_singleton]
  rfl

/-- A merge reaches the line's slot alone; a DRAINING one gains the re-dirty mark if it has none (R24). -/
theorem mergeWrite_eq (line : Nat) (mask : Flags64) (data : LineData) (seq : Word32) (s : State) :
    mergeWrite line mask data seq s = s.setBuf { s.buf with
      slots := s.buf.slots.map fun sl =>
        if sl.line = line then
          { sl with
            data := overlay mask data sl.data, valid := sl.valid ||| mask, newest := seq
            redirty := if sl.draining = true ∧ sl.redirty = none then some ⟨s.time.tick, seq⟩ else sl.redirty }
        else sl } := by
  simp only [mergeWrite, updSlot, mergedSlot, Bool.and_eq_true, Option.isNone_iff_eq_none]

theorem acceptWrite_new (hslot : s.slot? e.line = none) : acceptWrite e s = finishWrite e.tag e.line
    (takeSlot e.line e.mask e.data (s.host.acceptSeq + 1)
      (s.setHost { s.host with acceptSeq := s.host.acceptSeq + 1 })) := by
  have hslot : ¬((s.setHost { s.host with acceptSeq := s.host.acceptSeq + 1 }).slot? e.line).isSome = true := by
    simpa [State.slot?] using hslot
  rw [acceptWrite]
  dsimp only
  rw [if_neg hslot]

theorem acceptWrite_merge (hslot : s.slot? e.line ≠ none) : acceptWrite e s = finishWrite e.tag e.line
    (mergeWrite e.line e.mask e.data (s.host.acceptSeq + 1)
      (s.setHost { s.host with acceptSeq := s.host.acceptSeq + 1 })) := by
  have hslot : ((s.setHost { s.host with acceptSeq := s.host.acceptSeq + 1 }).slot? e.line).isSome = true :=
    Option.isSome_iff_ne_none.mpr hslot
  rw [acceptWrite]
  dsimp only
  rw [if_pos hslot]

/-! ### When a write can be accepted (R56) -/

theorem hasFreeSlot_iff (s : State) : s.hasFreeSlot = true ↔ s.buf.slots.length < 512 := decide_eq_true_iff

theorem canAccept_iff (s : State) (line : Nat) : s.canAccept line = true ↔
    s.boundHolds = false ∧ (s.slot? line ≠ none ∨ s.buf.slots.length < 512) := by
  simp [State.canAccept, hasFreeSlot_iff, Option.isSome_iff_ne_none]

theorem takable_write (hk : e.kind = .write) :
    s.takable e = true ↔ e.mask = 0#64 ∨ s.canAccept e.line = true := by
  simp [State.takable, hk]

theorem takeRequest_emptyWrite (hk : e.kind = .write) (hm : e.mask = 0#64) :
    takeRequest e s = finishWrite e.tag e.line s := by
  simp only [takeRequest, hk, if_pos hm]

theorem takeRequest_write (hk : e.kind = .write) (hm : e.mask ≠ 0#64) : takeRequest e s = acceptWrite e s := by
  simp only [takeRequest, hk, if_neg hm]

/-! ### The answer of a write that is taken (R50) -/

theorem finishWrite_answers {tag : BitVec 5} {line : Nat} (h : s.earlierRead tag line = false) :
    finishWrite tag line s = answer tag .done zeroLine s := by
  rw [finishWrite, if_neg (Bool.eq_false_iff.mp h)]

/-- A write taken on arrival is answered, or its answer is held behind a READ of its line in service. -/
theorem finishWrite_addEntry (hfree : s.occupied e.tag = false) : finishWrite e.tag e.line (addEntry e s) =
    if s.host.entries.any (fun x => x.line = e.line && x.inService) = true then
      addEntry { e with standing := .answerHeld, data := zeroLine } s
    else sendHost e.tag .done zeroLine s := by
  have hearlier : (addEntry e s).earlierRead e.tag e.line =
      s.host.entries.any fun x => x.line = e.line && x.inService := by
    rw [State.earlierRead, addEntry, State.setHost_host, entriesBefore_append hfree]
  rw [finishWrite, hearlier, answer_addEntry _ _ hfree]
  simp only [addEntry, State.setHost_host, map_entries_append _ hfree]
  rfl

end

/-! ### The arrival of a WRITE (R50, R55, R56) -/

section
variable {s : State} {line : Nat} {mask : Flags64}

/-- A WRITE waits behind a waiting write to its line, and where it cannot be taken. -/
theorem arriveWrite_waits (tag : BitVec 5) (data : LineData)
    (h : s.earlierWriteWaits line = true ∨ mask ≠ 0#64 ∧ s.canAccept line = false) :
    arriveWrite tag line mask data s = addEntry ⟨tag, .write, line, mask, data, .waiting⟩ s := by
  have htakable : s.earlierWriteWaits line = false →
      (addEntry ⟨tag, .write, line, mask, data, .waiting⟩ s).takable ⟨tag, .write, line, mask, data, .waiting⟩ = false := by
    intro hw
    obtain ⟨hm, hc⟩ := h.resolve_left (by simp [hw])
    rw [Bool.eq_false_iff, Ne, takable_write rfl]
    exact not_or.mpr ⟨hm, Bool.eq_false_iff.mp hc⟩
  unfold arriveWrite
  cases hw : s.earlierWriteWaits line with
  | true => rw [if_pos rfl]
  | false => rw [if_neg Bool.false_ne_true, if_neg (by simp [htakable hw])]

theorem arriveWrite_taken (tag : BitVec 5) (data : LineData) (hw : s.earlierWriteWaits line = false)
    (h : mask = 0#64 ∨ s.canAccept line = true) : arriveWrite tag line mask data s =
      takeRequest ⟨tag, .write, line, mask, data, .waiting⟩
        (addEntry ⟨tag, .write, line, mask, data, .waiting⟩ s) := by
  have htakable : (addEntry ⟨tag, .write, line, mask, data, .waiting⟩ s).takable
      ⟨tag, .write, line, mask, data, .waiting⟩ = true := (takable_write rfl).mpr h
  unfold arriveWrite
  rw [if_neg (by simp [hw]), if_pos htakable]

theorem arriveWrite_accepted (tag : BitVec 5) (data : LineData) (hm : mask ≠ 0#64)
    (hw : s.earlierWriteWaits line = false) (hc : s.canAccept line = true) : arriveWrite tag line mask data s =
      acceptWrite ⟨tag, .write, line, mask, data, .waiting⟩
        (addEntry ⟨tag, .write, line, mask, data, .waiting⟩ s) := by
  rw [arriveWrite_taken tag data hw (.inr hc), takeRequest_write rfl hm]

/-- The answer of a write accepted on arrival, and what its acceptance left in the buffer. -/
theorem finishWrite_accepted {e : TagEntry} (buf : AbsorbBuffer) (hfree : s.occupied e.tag = false) {held : Bool}
    (hheld : held = s.host.entries.any fun x => x.line = e.line && x.inService) :
    finishWrite e.tag e.line (addEntry e { s with
        out := Outputs.none, host := { s.host with acceptSeq := s.host.acceptSeq + 1 }, buf := buf }) = { s with
      out := if held then Outputs.none else oneResponse e.tag .done zeroLine
      host := { s.host with
        acceptSeq := s.host.acceptSeq + 1
        entries := s.host.entries ++ if held then [{ e with standing := .answerHeld, data := zeroLine }] else [] }
      buf := buf } := by
  refine (finishWrite_addEntry (s := { s with
    out := Outputs.none, host := { s.host with acceptSeq := s.host.acceptSeq + 1 }, buf := buf }) hfree).trans ?_
  dsimp only
  rw [← hheld]
  cases held with
  | true => rfl
  | false => simp [sendHost, oneResponse, State.setOut, Outputs.none]

end

/-- Settles O23: the write taken into a FREE slot or its line's slot, and the four ways of taking none. -/
theorem hostWriteIsAcceptedRefusedOrQueued : Obligations.HostWriteIsAcceptedRefusedOrQueued := by
  refine ⟨fun tag line mask data s hp hon hm hbound hw held hheld => ?_, fun tag line mask data s hp =>
    ⟨fun hoff => ?_, fun hon hm hw hidle => ?_, fun hon hwait => ?_⟩⟩
  · have haccepts (hslot : s.slot? line.toNat ≠ none ∨ s.buf.slots.length < 512) {t : State}
        (ht : acceptWrite ⟨tag, .write, line.toNat, mask, data, .waiting⟩
          (addEntry ⟨tag, .write, line.toNat, mask, data, .waiting⟩ (beginHappening s)) = t) :
        exec (.hostWrite tag line mask data) s = .next (settle t) := by
      rw [exec_hostWrite_passes mask data hp, if_pos hon,
        arriveWrite_accepted (s := beginHappening s) tag data hm hw ((canAccept_iff _ _).mpr ⟨hbound, hslot⟩), ht]
    refine ⟨fun hslot hroom => haccepts (.inr hroom) ?_, fun hslot => haccepts (.inl hslot) ?_⟩
    · rw [acceptWrite_new, takeSlot_eq]
      exacts [finishWrite_accepted (e := ⟨tag, .write, line.toNat, mask, data, .waiting⟩) _ hp.free hheld, hslot]
    · rw [acceptWrite_merge, mergeWrite_eq]
      exacts [finishWrite_accepted (e := ⟨tag, .write, line.toNat, mask, data, .waiting⟩) _ hp.free hheld, hslot]
  · rw [exec_hostWrite_passes mask data hp, if_neg hoff]
  · have hnone : (beginHappening s).host.entries.any (fun x => x.line = line.toNat && x.inService) = false := by
      simpa [List.any_eq_false] using hidle
    rw [exec_hostWrite_passes mask data hp, if_pos hon, arriveWrite_taken (s := beginHappening s) tag data hw (.inl hm),
      takeRequest_emptyWrite rfl hm,
      finishWrite_addEntry (s := beginHappening s) (e := ⟨tag, .write, line.toNat, mask, data, .waiting⟩) hp.free,
      if_neg (Bool.eq_false_iff.mp hnone), sendHost_beginHappening (by decide)]
  · have hcannot : s.boundHolds = true ∨ (s.slot? line.toNat = none ∧ 512 ≤ s.buf.slots.length) →
        s.canAccept line.toNat = false := by
      rw [Bool.eq_false_iff, Ne, canAccept_iff]
      rintro (hb | ⟨hslot, hfull⟩) ⟨hb', hroom⟩
      · simp [hb] at hb'
      · exact hroom.elim (absurd hslot) (Nat.not_lt.mpr hfull)
    rw [exec_hostWrite_passes mask data hp, if_pos hon,
      arriveWrite_waits (s := beginHappening s) tag data (hwait.imp_right (And.imp_right hcannot))]
    rfl

end Sys2Proof.Machine
end

section
/-! SUPPORT. The wait queue (R57), and PERSIST and the flush barrier (R42, R59, R60). -/

namespace Sys2Proof.Machine

/-! ### The wait queue (R57) -/

section
variable {s : State} {e : TagEntry}

/-- The write the queue takes next can be accepted and is the first waiting request of its line. -/
theorem nextWaiting_spec (h : s.nextWaiting = some e) : e.kind = .write ∧ e.mask ≠ 0#64 ∧
    s.canAccept e.line = true ∧ s.firstWaiting e.line = some e := by
  have htest := List.find?_some h
  simp only [TagEntry.inWaitQueue, TagEntry.waitingWrite, Bool.and_eq_true, decide_eq_true_eq] at htest
  obtain ⟨⟨⟨⟨hkind, -⟩, hmask⟩, hcan⟩, hfirst⟩ := htest
  exact ⟨hkind, hmask, hcan, hfirst⟩

theorem takeLine_of_none {line : Nat} (h : s.firstWaiting line = none) (n : Nat) : takeLine line n s = s := by
  cases n with
  | zero => rfl
  | succ n => simp only [takeLine, h]

theorem takeLine_succ {line : Nat} (h : s.firstWaiting line = some e) (ht : s.takable e = true) (n : Nat) :
    takeLine line (n + 1) s = takeLine line n (takeRequest e s) := by
  simp only [takeLine, h, ht, if_true]

section
variable (halone : ∀ x ∈ s.host.entries, x.line = e.line → x = e)
include halone

theorem earlierRead_of_alone (hkind : e.kind = .write) : s.earlierRead e.tag e.line = false := by
  simp only [State.earlierRead, List.any_eq_false, Bool.and_eq_true, decide_eq_true_eq, not_and]
  intro x hx hline
  rw [halone x ((List.takeWhile_prefix _).mem hx) hline]
  simp [TagEntry.inService, hkind]

/-- With the one request of a line answered, none of the line waits. -/
theorem firstWaiting_answered (code : HostCode) (data : LineData) :
    (answer e.tag code data s).firstWaiting e.line = none := by
  simp only [State.firstWaiting, (answer_spec e.tag code data s).1, List.find?_eq_none, List.mem_filter,
    decide_eq_true_eq, Bool.and_eq_true, not_and]
  rintro x ⟨hx, htag⟩ hline
  exact absurd (congrArg TagEntry.tag (halone x hx hline)) htag

end

/-- The one waiting request of a line with no slot takes a FREE slot and is answered (R56). -/
theorem acceptWrite_alone (halone : ∀ x ∈ s.host.entries, x.line = e.line → x = e) (hkind : e.kind = .write)
    (hslot : s.slot? e.line = none) : acceptWrite e s = answer e.tag .done zeroLine
      (takeSlot e.line e.mask e.data (s.host.acceptSeq + 1)
        (s.setHost { s.host with acceptSeq := s.host.acceptSeq + 1 })) := by
  rw [acceptWrite_new hslot, finishWrite_answers]
  exact earlierRead_of_alone (s := s) halone hkind

theorem exec_waitQueueTake (s : State) :
    exec .waitQueueTake s = .next (settle (perform waitQueueTake? (beginHappening s))) := rfl

end

/-- Settles O25: the one waiting request of its line is accepted and answered, and no other follows it. -/
theorem waitQueueTakeAcceptsTheOldestWaitingWrite : Obligations.WaitQueueTakeAcceptsTheOldestWaitingWrite := by
  intro e s hon hnext hslot halone
  obtain ⟨hkind, hmask, hcan, hfirst⟩ := nextWaiting_spec hnext
  have htake : waitQueueTake? (beginHappening s) = some (takeLine e.line 32 (beginHappening s)) := by
    have hnext : (beginHappening s).nextWaiting = some e := hnext
    rw [waitQueueTake?, if_pos (show (beginHappening s).unit.state = .online from hon), hnext]
    rfl
  have haccept := acceptWrite_alone (s := beginHappening s) halone hkind hslot
  have hline : takeLine e.line 32 (beginHappening s) = acceptWrite e (beginHappening s) := by
    rw [takeLine_succ (s := beginHappening s) hfirst ((takable_write hkind).mpr (.inr hcan)),
      takeRequest_write hkind hmask, haccept]
    exact takeLine_of_none (firstWaiting_answered (by exact halone) _ _) _
  rw [exec_waitQueueTake, perform_of_some htake, hline, haccept, takeSlot_eq]
  rfl

/-! ### PERSIST (R59, R60) -/

section
variable {s : State} {tag : BitVec 5}

theorem persistRoom_iff (s : State) : s.persistRoom = true ↔ s.host.persists.length < 8 := decide_eq_true_iff

theorem takePersist_done (h : s.satisfied s.host.acceptSeq = true) :
    takePersist tag s = answer tag .done zeroLine s := by
  simp only [takePersist, h, if_true]

theorem takePersist_pending (h : s.satisfied s.host.acceptSeq = false) : takePersist tag s =
    (setStanding tag .persistPending s).setHost { (setStanding tag .persistPending s).host with
      persists := s.host.persists ++ [⟨tag, s.host.acceptSeq⟩] } := by
  simp only [takePersist, h, Bool.false_eq_true, if_false]
  rfl

/-- The three conditions of R59 for a PERSIST that arrives. -/
theorem arrivePersist_eq (tag : BitVec 5) (line : Nat) (s : State) {free : Prop} (hfree : free ↔
    s.host.persists.length < 8 ∧ ∀ e ∈ s.host.entries, e.waitingWrite = false ∧ e.standing ≠ .persistWaiting) :
    (free → arrivePersist tag line s =
      takePersist tag (addEntry ⟨tag, .persist, line, 0#64, zeroLine, .persistWaiting⟩ s)) ∧
    (¬free → arrivePersist tag line s = addEntry ⟨tag, .persist, line, 0#64, zeroLine, .persistWaiting⟩ s) := by
  have htest : (s.persistRoom && !(s.host.entries.any TagEntry.waitingWrite)
      && !(s.host.entries.any fun x => x.standing = .persistWaiting)) = true ↔ free := by
    rw [hfree]
    simp [persistRoom_iff, forall_and, and_assoc]
  exact ⟨fun h => if_pos (htest.mpr h), fun h => if_neg (mt htest.mp h)⟩

theorem persistTake?_some {e : TagEntry} (hs : s.serves)
    (he : s.host.entries.find? (fun x => x.standing = .persistWaiting) = some e) (hroom : s.host.persists.length < 8)
    (hbefore : ∀ x ∈ s.host.entries.takeWhile (fun y => y.tag ≠ e.tag), x.waitingWrite = false) :
    persistTake? s = some (takePersist e.tag s) := by
  obtain ⟨hr, hn⟩ := serves_iff.mp hs
  have hany : (entriesBefore e.tag s.host.entries).any TagEntry.waitingWrite = false :=
    List.any_eq_false.mpr fun x hx => Bool.eq_false_iff.mp (hbefore x hx)
  simp only [persistTake?, hn, hr, he, (persistRoom_iff s).mpr hroom, hany, decide_false, Bool.or_self,
    Bool.false_eq_true, if_false, Bool.not_false, Bool.and_self, if_true]

theorem persistDone?_some {p : PendingPersist} {rest : List PendingPersist} (hf : s.unit.state ≠ .failed)
    (hp : s.host.persists = p :: rest) (hb : s.satisfied p.barrier = true) :
    persistDone? s = some (answer p.tag .done zeroLine (s.setHost { s.host with persists := rest })) := by
  simp only [persistDone?, if_neg hf, hp, hb, if_true]

theorem flushDone?_some {b : Word32} (hf : s.unit.state ≠ .failed) (hflush : s.buf.flush = some b)
    (hb : s.satisfied b = true) : flushDone? s = some (raise .flushDone (s.setBuf { s.buf with flush := none })) := by
  simp only [flushDone?, if_neg hf, hflush, hb, if_true]

theorem persistDone?_failed (hf : s.unit.state = .failed) : persistDone? s = none := if_pos hf

theorem flushDone?_failed (hf : s.unit.state = .failed) : flushDone? s = none := if_pos hf

theorem perform_of_none {f : State → Option State} (h : f s = none) : perform f s = s := by
  simp [perform, h]

theorem exec_persistTake (s : State) :
    exec .persistTake s = .next (settle (perform persistTake? (beginHappening s))) := rfl

theorem exec_persistDone (s : State) :
    exec .persistDone s = .next (settle (perform persistDone? (beginHappening s))) := rfl

theorem exec_flushDone (s : State) :
    exec .flushDone s = .next (settle (perform flushDone? (beginHappening s))) := rfl

end

/-- Settles O24: the arrival, the taking and the answer of a PERSIST, the end of a FLUSH, and FAILED. -/
theorem persistsAreTakenAndAnswered : Obligations.PersistsAreTakenAndAnswered := by
  refine ⟨fun tag line s hs hfree free hiff => ?_, fun e s hs he hroom hbefore => ?_,
    fun s hf => ⟨fun p rest hp hb => ?_, fun b hflush hb => ?_⟩, fun s hf => ⟨?_, ?_⟩⟩
  · obtain ⟨htaken, hwaits⟩ := arrivePersist_eq tag line.toNat (beginHappening s) hiff
    rw [exec_hostPersist_serves line hs hfree]
    refine ⟨fun hf hb => ?_, fun hf hb => ?_, fun hf => ?_⟩
    · rw [htaken hf, takePersist_done, answer_addEntry (s := beginHappening s)
        (e := ⟨tag, .persist, line.toNat, 0#64, zeroLine, .persistWaiting⟩) .done zeroLine hfree,
        sendHost_beginHappening (by decide)]
      exact hb
    · rw [htaken hf, takePersist_pending, setStanding_addEntry (s := beginHappening s)
        (e := ⟨tag, .persist, line.toNat, 0#64, zeroLine, .persistWaiting⟩) _ hfree]
      exacts [rfl, hb]
    · rw [hwaits hf]
      rfl
  · rw [exec_persistTake, perform_of_some (persistTake?_some (s := beginHappening s) hs he hroom hbefore)]
    refine ⟨fun hb => ?_, fun hb => ?_⟩
    · rw [takePersist_done (s := beginHappening s) hb]
      rfl
    · rw [takePersist_pending (s := beginHappening s) hb]
      rfl
  · rw [exec_persistDone, perform_of_some (persistDone?_some (s := beginHappening s) hf hp hb)]
    rfl
  · rw [exec_flushDone, perform_of_some (flushDone?_some (s := beginHappening s) hf hflush hb)]
    rfl
  · rw [exec_persistDone, perform_of_none (persistDone?_failed (s := beginHappening s) hf)]
    rfl
  · rw [exec_flushDone, perform_of_none (flushDone?_failed (s := beginHappening s) hf)]
    rfl

end Sys2Proof.Machine
end

section
/-! SUPPORT. The return of a host read: its outcome, the answer by Table 3.5, and the DONEs held behind it (R50, R53, R64, R72
to R74, R109). -/

namespace Sys2Proof.Machine

/-! ### The held answers that a READ's answer releases (R50) -/

section
variable {tag : BitVec 5} {line : Nat}

/-- An entry whose answer is held has an earlier READ of its line in service. -/
def TagEntry.BlockedBy (x : TagEntry) (before : List TagEntry) : Prop :=
  x.standing = .answerHeld → ∃ b ∈ before, b.line = x.line ∧ b.inService = true

theorem releasableIn_cons_blocked {x : TagEntry} {before : List TagEntry} (h : x.BlockedBy before)
    (l : List TagEntry) : releasableIn before (x :: l) = releasableIn (x :: before) l := by
  rw [releasableIn, if_neg]
  simpa [TagEntry.BlockedBy] using h

theorem releasableIn_cons_free {x : TagEntry} {before : List TagEntry} (h : ¬x.BlockedBy before) (l : List TagEntry) :
    releasableIn before (x :: l) = x.tag :: releasableIn (x :: before) l := by
  rw [releasableIn, if_pos]
  simpa [TagEntry.BlockedBy] using h

theorem blockedBy_of_releasesNone {x : TagEntry} {before l : List TagEntry} (h : releasableIn before (x :: l) = []) :
    x.BlockedBy before ∧ releasableIn (x :: before) l = [] := by
  by_cases hx : x.BlockedBy before
  · exact ⟨hx, (releasableIn_cons_blocked hx l).symm.trans h⟩
  · rw [releasableIn_cons_free hx] at h
    cases h

theorem releasableIn_of_noneHeld (before : List TagEntry) {l : List TagEntry}
    (h : ∀ x ∈ l, x.standing ≠ .answerHeld) : releasableIn before l = [] := by
  induction l generalizing before with
  | nil => rfl
  | cons x l ih =>
    rw [List.forall_mem_cons] at h
    rw [releasableIn_cons_blocked fun hheld => absurd hheld h.1]
    exact ih _ h.2

/-- Where each held answer waits for a READ of its line, and no READ of the line but the one of this tag is in service,
the table without that READ releases the held answers of its line and no other. -/
theorem releasableIn_without (before l : List TagEntry) (htag : ∀ x ∈ before ++ l, x.tag = tag → x.line = line)
    (hlast : ∀ x ∈ before ++ l, x.tag ≠ tag → x.line = line → x.inService = false)
    (hwait : releasableIn before l = []) :
    releasableIn (before.filter fun x => x.tag ≠ tag) (l.filter fun x => x.tag ≠ tag) =
      ((l.filter fun x => x.tag ≠ tag).filter fun x => x.standing = .answerHeld ∧ x.line = line).map (·.tag) := by
  induction l generalizing before with
  | nil => rfl
  | cons x l ih =>
    have hmem : ∀ y, y ∈ (x :: before) ++ l → y ∈ before ++ x :: l := fun y hy => by
      simpa [or_left_comm] using hy
    obtain ⟨hblocked, hrest⟩ := blockedBy_of_releasesNone hwait
    have ih := ih (x :: before) (fun y hy => htag y (hmem y hy)) (fun y hy => hlast y (hmem y hy)) hrest
    by_cases hx : x.tag = tag
    · simpa only [List.filter_cons, hx, ne_eq, not_true_eq_false, decide_false, Bool.false_eq_true, if_false] using ih
    · simp only [List.filter_cons, hx, ne_eq, not_false_eq_true, decide_true, if_true] at ih ⊢
      by_cases hheld : x.standing = .answerHeld ∧ x.line = line
      · have hfree : ¬x.BlockedBy (before.filter fun y => ¬y.tag = tag) := by
          intro h
          obtain ⟨b, hb, hbline, hserved⟩ := h hheld.1
          simp only [List.mem_filter, decide_eq_true_eq] at hb
          have hidle := hlast b (List.mem_append_left _ hb.1) hb.2 (hbline.trans hheld.2)
          simp [hserved] at hidle
        rw [releasableIn_cons_free hfree, ih, if_pos (decide_eq_true hheld), List.map_cons]
      · have hkept : x.BlockedBy (before.filter fun y => ¬y.tag = tag) := by
          intro h
          obtain ⟨b, hb, hbline, hserved⟩ := hblocked h
          have hother : ¬b.tag = tag := fun hbt =>
            hheld ⟨h, hbline ▸ htag b (List.mem_append_left _ hb) hbt⟩
          exact ⟨b, List.mem_filter.mpr ⟨hb, decide_eq_true hother⟩, hbline, hserved⟩
        rw [releasableIn_cons_blocked hkept, ih, if_neg (by simpa using hheld)]

/-- Answering a list of tags sends the answers in its order and frees their entries. -/
theorem foldl_answer_eq {code : HostCode} {data : LineData} (hdata : code = .data ∨ data = zeroLine)
    (tags : List (BitVec 5)) (s : State) : tags.foldl (fun t tag => answer tag code data t) s = { s with
      out := { s.out with host := s.out.host ++ tags.map fun tag => ⟨tag, code, data⟩ }
      host := { s.host with entries := s.host.entries.filter fun x => x.tag ∉ tags } } := by
  induction tags generalizing s with
  | nil => simp
  | cons tag tags ih =>
    rw [List.foldl_cons, ih, answer, sendHost_eq hdata]
    simp [removeEntry, State.setHost, List.filter_filter, Bool.and_comm]

/-- The answer of a READ, with the DONEs that follow directly (R50). -/
theorem answerRead_eq {code : HostCode} {data : LineData} (hdata : code = .data ∨ data = zeroLine)
    {rest held : List TagEntry} {s : State} (hrest : rest = s.host.entries.filter fun x => x.tag ≠ tag)
    (hheld : releasableIn [] rest = held.map (·.tag)) (hout : s.out = Outputs.none) :
    answerRead tag code data s = { s with
      out := { Outputs.none with host := ⟨tag, code, data⟩ :: held.map fun x => ⟨x.tag, .done, zeroLine⟩ }
      host := { s.host with entries := rest.filter fun x => x.tag ∉ held.map (·.tag) } } := by
  have hentries : (answer tag code data s).host.entries = rest := hrest.symm
  rw [answerRead, releaseHeld, hentries, hheld, foldl_answer_eq (.inr rfl), hentries, answer, sendHost_eq hdata]
  simp [removeEntry, State.setHost, hout, Outputs.none]

/-- With no tag twice in the table, the entries whose tags are not those of some of them are the other ones. -/
theorem filter_tag_notMem {rest : List TagEntry} (hnodup : (rest.map (·.tag)).Nodup) (p : TagEntry → Prop)
    [DecidablePred p] : rest.filter (fun x => x.tag ∉ (rest.filter fun y => p y).map (·.tag)) =
      rest.filter fun x => ¬p x := by
  refine List.filter_congr fun x hx => decide_eq_decide.mpr (not_congr ?_)
  rw [List.mem_map]
  refine ⟨fun ⟨y, hy, htag⟩ => ?_, fun hp => ⟨x, List.mem_filter.mpr ⟨hx, decide_eq_true hp⟩, rfl⟩⟩
  obtain ⟨hy, hp⟩ := List.mem_filter.mp hy
  exact List.inj_on_of_nodup_map hnodup hy hx htag ▸ of_decide_eq_true hp

end

/-- What the READ of an entry leaves when it is answered, where no answer is held or each waits for a READ and no other
READ of the line is in service: the answers held on its line are released, and no other (R50). -/
theorem releasable_after {s : State} {tag : BitVec 5} {e : TagEntry} {rest held : List TagEntry}
    (he : s.tagEntry? tag = some e) (hrest : rest = s.host.entries.filter fun x => x.tag ≠ tag)
    (hheld : held = rest.filter fun x => x.standing = .answerHeld ∧ x.line = e.line)
    (h : (∀ x ∈ s.host.entries, x.standing ≠ .answerHeld) ∨ ((s.host.entries.map (·.tag)).Nodup ∧ s.HeldAnswersWait ∧
      ∀ x ∈ rest, x.line = e.line → x.inService = false)) :
    releasableIn [] rest = held.map (·.tag) ∧ rest.filter (fun x => x.tag ∉ held.map (·.tag)) =
      rest.filter fun x => ¬(x.standing = .answerHeld ∧ x.line = e.line) := by
  rcases h with hnone | ⟨hnodup, hwait, hlast⟩
  · have hnone : ∀ x ∈ rest, x.standing ≠ .answerHeld := fun x hx =>
      hnone x (List.mem_of_mem_filter (hrest ▸ hx))
    have hempty : held = [] := by
      rw [hheld]
      exact List.filter_eq_nil_iff.mpr fun x hx => by simp [hnone x hx]
    refine ⟨by rw [releasableIn_of_noneHeld [] hnone, hempty]; rfl, List.filter_congr fun x hx => ?_⟩
    simp [hempty, hnone x hx]
  · have htag : ∀ x ∈ [] ++ s.host.entries, x.tag = tag → x.line = e.line := fun x hx hxtag => by
      have hetag : e.tag = tag := by simpa using List.find?_some he
      rw [List.inj_on_of_nodup_map hnodup hx (List.mem_of_find?_eq_some he) (hxtag.trans hetag.symm)]
    have hlast : ∀ x ∈ [] ++ s.host.entries, x.tag ≠ tag → x.line = e.line → x.inService = false := fun x hx hxtag =>
      hlast x (hrest ▸ List.mem_filter.mpr ⟨hx, decide_eq_true hxtag⟩)
    have hreleased := releasableIn_without [] s.host.entries htag hlast hwait
    have hrestNodup : (rest.map (·.tag)).Nodup := hrest ▸ hnodup.sublist (List.filter_sublist.map _)
    subst hheld
    exact ⟨hrest ▸ hreleased, filter_tag_notMem hrestNodup _⟩

/-! ### The outcome of a host read (R64, R72 to R74, R109) -/

section
variable {s : State} {op : InFlight} {tag : BitVec 5} {e : TagEntry}

theorem decodeStored_corrected {data : LineData} {stored : Stored} (h1 : 1 ≤ errorsFrom data stored)
    (h4 : errorsFrom data stored ≤ 4) : decodeStored stored = .corrected (errorsFrom data stored) data := by
  obtain ⟨x, hx, hdata⟩ := correction_of_near h4
  unfold decodeStored
  rw [hx]
  dsimp only
  rw [hdata, if_neg (Nat.one_le_iff_ne_zero.mp h1)]

/-- A retire cause of a MAPPED frame that makes no request, outside ONLINE and WRITE_PROTECTED or with no owner, marks the
frame (R12, R83). -/
theorem retireCause_marks {f : Nat} {r : FrameRecord} (reason : Reason) (hstop : s.running = false ∨ r.owner = none)
    (hl : s.map.loaded = true) (hf : s.frame? f = some r) (hrole : r.role = .mapped) :
    retireCause f reason s = updFrame f (fun x => { x with wanted := true }) s := by
  rcases hstop with hs | howner
  · exact retireCause_stopping reason hs hl hf hrole
  · simp only [retireCause, hf, hl, hrole, howner, Bool.true_and, decide_true, if_true]

/-- An update of a frame's record is told by the record that stands there. -/
theorem modify_congr_at {α : Type} {l : List α} {i : Nat} {a : α} {f g : α → α} (ha : l[i]? = some a)
    (hfg : f a = g a) : l.modify i f = l.modify i g := by
  refine List.ext_getElem? fun j => ?_
  by_cases hij : i = j
  · subst hij
    simp [ha, hfg]
  · simp [hij]

/-- A corrected read of a MAPPED frame whose count stays below RetireErrors is counted, and reports no cause (R72, R108). -/
theorem raiseCorrected_below {f : Nat} {r : FrameRecord} (hf : s.frame? f = some r) (hrole : r.role = .mapped)
    (hless : r.corrected + 1 < s.time.active.retireErrors) (hmax : r.corrected < 65535) :
    raiseCorrected f s = s.setMap { s.map with
      frames := s.map.frames.modify f fun x => { x with corrected := x.corrected + 1 } } := by
  have hraise : satRaise max16 r.corrected = r.corrected + 1 := if_pos hmax
  have hcause : decide (s.time.active.retireErrors ≤ r.corrected + 1) = false :=
    decide_eq_false (Nat.not_le.mpr hless)
  simp only [raiseCorrected, hf, hrole, hraise, hcause, decide_true, Bool.true_or, Bool.and_false, Bool.false_eq_true,
    if_true, if_false]
  rw [updFrame, modify_congr_at hf (by rw [hraise])]

theorem readOutcome_corrected {k : Nat} {data : LineData} {r : FrameRecord}
    (hf : s.frame? (op.request.physical / 64) = some r) (hrole : r.role = .mapped)
    (hless : r.corrected + 1 < s.time.active.retireErrors) (hmax : r.corrected < 65535) :
    readOutcome op (.corrected k data) s = { s with
      map := { s.map with
        frames := s.map.frames.modify (op.request.physical / 64) fun x => { x with corrected := x.corrected + 1 } }
      health := { s.health with correctedReads := satRaise max32 s.health.correctedReads }
      media := { s.freed op with lastError := s.errorRecord op .corrected k } } := by
  unfold readOutcome
  dsimp only
  rw [raiseCorrected_below]
  exacts [rfl, hf, hrole, hless, hmax]

theorem exec_hostReadReturn (stored : Stored) (hop : s.Reading op (.host tag)) :
    exec (.hostReadReturn op.id stored) s =
      .next (settle (hostReadOutcome op (decodeStored stored) (beginHappening s))) := by
  have hread : (beginHappening s).readInFlight? op.id Requester.isHost = some op := by
    have hfound : (beginHappening s).inFlight? op.id = some op := hop.found
    simp only [State.readInFlight?, hfound, Option.filter_some, hop.kind, hop.requester, Requester.isHost, decide_true,
      Bool.and_self, if_true]
  change Host.Outcome.next (settle (match (beginHappening s).readInFlight? op.id Requester.isHost with
    | some op => _
    | none => beginHappening s)) = _
  rw [hread]

/-- A line read reaches its READ when it is counted (R53). -/
theorem hostReadOutcome_delivered {o : ReadOutcome LineData} (ho : o.delivered ≠ none)
    (hrequester : op.request.requester = .host tag) (he : s.tagEntry? tag = some e) :
    hostReadOutcome op o s = returnRead tag e.line o (readOutcome op o s) := by
  have he : (readOutcome op o s).tagEntry? tag = some e := by
    simpa only [State.tagEntry?, readOutcome_frame] using he
  cases o with
  | clean d => simp only [hostReadOutcome, hrequester, he]
  | corrected k d => simp only [hostReadOutcome, hrequester, he]
  | uncorrectable => exact absurd rfl ho

/-- An UNCORRECTABLE read reaches its READ when its frame is reported (R53, R109). -/
theorem hostReadOutcome_uncorrectable {u : State} (hrequester : op.request.requester = .host tag)
    (hcause : retireCause (op.request.physical / 64) .retireError
      (readOutcome op (.uncorrectable : ReadOutcome LineData) s) = u)
    (he : u.tagEntry? tag = some e) :
    hostReadOutcome op .uncorrectable s = returnRead tag e.line .uncorrectable u := by
  simp only [hostReadOutcome, frameOf, hcause, hrequester, he]

end

/-! ### The answer by Table 3.5 (R53) -/

section
variable {s : State} {line : Nat} (tag : BitVec 5) (o : ReadOutcome LineData)

theorem returnRead_full {sl : Slot} (hsl : s.slot? line = some sl) (hfull : sl.valid = fullMask) :
    returnRead tag line o s = answerRead tag .data sl.data s := by
  rw [returnRead, fullSlot?_some hsl hfull]

section
variable (hpartly : ∀ sl, s.slot? line = some sl → sl.valid ≠ fullMask)
include hpartly

theorem returnRead_losing (hl : s.losing line = true) : returnRead tag line o s = setStanding tag (.reading true) s := by
  simp only [returnRead, fullSlot?_none_iff.mpr hpartly, hl, if_true]

theorem returnRead_poisoned (hl : s.losing line = false) (hpoison : s.poisoned line = true) :
    returnRead tag line o s = answerRead tag .poison zeroLine s := by
  simp only [returnRead, fullSlot?_none_iff.mpr hpartly, hl, hpoison, Bool.false_eq_true, if_false, if_true]

theorem returnRead_undelivered (hl : s.losing line = false) (hpoison : s.poisoned line = false)
    (ho : o.delivered = none) : returnRead tag line o s = answerRead tag .poison zeroLine s := by
  simp only [returnRead, fullSlot?_none_iff.mpr hpartly, hl, hpoison, ho, Bool.false_eq_true, if_false]

/-- The slot's bytes are laid over the line that was read. -/
theorem returnRead_laid (hl : s.losing line = false) (hpoison : s.poisoned line = false) {data laid : LineData}
    (ho : o.delivered = some data) (hnone : s.slot? line = none → laid = data)
    (hsome : ∀ sl, s.slot? line = some sl → laid = overlay sl.valid sl.data data) :
    returnRead tag line o s = answerRead tag .data laid s := by
  simp only [returnRead, fullSlot?_none_iff.mpr hpartly, hl, hpoison, ho, Bool.false_eq_true, if_false]
  cases hsl : s.slot? line with
  | none => rw [hnone hsl]
  | some sl => rw [hsome sl hsl]

end

end

/-- Settles O29: the outcome counted, the branches of Table 3.5, and the DONEs that the answer releases. -/
theorem hostReadReturnDecides : Obligations.HostReadReturnDecides := by
  intro tag op stored e s hop he delivered map health media hcases partly hpartly
  obtain ⟨u, hu⟩ : ∃ u, u = { s with out := Outputs.none, map := map, health := health, media := media } := ⟨_, rfl⟩
  obtain ⟨hexec, hdelivered, hentries⟩ : exec (.hostReadReturn op.id stored) s =
      .next (settle (returnRead tag e.line (decodeStored stored) u)) ∧ (decodeStored stored).delivered = delivered ∧
      map.entries = s.map.entries := by
    rw [exec_hostReadReturn stored hop]
    rcases hcases with ⟨data, rfl, h0, rfl, rfl, rfl⟩ | ⟨data, r, rfl, h1, h4, hf, hrole, hless, hmax, rfl, rfl, rfl⟩ |
      ⟨r, rfl, hfar, hl, hf, hrole, hstop, rfl, rfl, rfl⟩
    · rw [decodeStored_clean h0, hostReadOutcome_delivered (s := beginHappening s) (o := .clean data)
        (Option.some_ne_none data) hop.requester he, hu]
      exact ⟨rfl, rfl, rfl⟩
    · rw [decodeStored_corrected h1 h4, hostReadOutcome_delivered (s := beginHappening s) (o := .corrected _ data)
        (Option.some_ne_none data) hop.requester he, readOutcome_corrected (s := beginHappening s) hf hrole hless hmax, hu]
      exact ⟨rfl, rfl, rfl⟩
    · have hcause : retireCause (op.request.physical / 64) .retireError
          (readOutcome op (.uncorrectable : ReadOutcome LineData) (beginHappening s)) = u := by
        rw [readOutcome_uncorrectable, retireCause_marks, hu]
        exacts [rfl, hstop, hl, hf, hrole]
      rw [decodeStored_uncorrectable hfar,
        hostReadOutcome_uncorrectable hop.requester hcause (by rw [hu]; exact he)]
      exact ⟨rfl, rfl, rfl⟩
  have hslot : u.slot? e.line = s.slot? e.line := by rw [hu]; rfl
  have hlosing : u.losing e.line = s.losing e.line := by rw [hu]; rfl
  have hpoisoned : u.poisoned e.line = s.poisoned e.line := by
    simp only [hu, State.poisoned, State.entry?, hentries]
  rw [← hslot] at hpartly ⊢
  rw [← hlosing, ← hpoisoned, hexec]
  refine ⟨fun hp hl => ?_, fun rest held hrest hheld hwait sends hsends => ?_⟩
  · rw [returnRead_losing tag _ (hpartly.mp hp) hl, hu]
    rfl
  · obtain ⟨hreleased, hkept⟩ := releasable_after he hrest hheld hwait
    have hanswer : ∀ code data, code = .data ∨ data = zeroLine →
        returnRead tag e.line (decodeStored stored) u = answerRead tag code data u → sends code data := by
      intro code data hdata hreturn
      rw [hsends, hreturn, answerRead_eq hdata (by rw [hu]; exact hrest) hreleased (by rw [hu]), hkept, hu]
    refine ⟨fun sl hsl hfull => ?_, fun hp hl hpoison => ?_, fun data laid hp hl hpoison hd hlaid => ?_,
      fun hp hl hpoison hd => ?_⟩
    · exact hanswer _ _ (.inl rfl) (returnRead_full tag _ hsl hfull)
    · exact hanswer _ _ (.inr rfl) (returnRead_poisoned tag _ (hpartly.mp hp) hl hpoison)
    · refine hanswer _ _ (.inl rfl) (returnRead_laid tag _ (hpartly.mp hp) hl hpoison (hdelivered.trans hd)
        (fun hsl => ?_) fun sl hsl => ?_) <;> rw [hlaid, hsl]
    · exact hanswer _ _ (.inr rfl) (returnRead_undelivered tag _ (hpartly.mp hp) hl hpoison (hdelivered.trans hd))

end Sys2Proof.Machine
end

section
/-! SUPPORT. Completions that name no attempt in flight (R63), and the code with its decoder (R64, R71). -/

namespace Sys2Proof.Machine

/-! ### Completions that name no attempt in flight (R63) -/

section
variable {s : State} {id : AttemptId}

theorem readInFlight?_of_none (h : s.inFlight? id = none) (p : Requester → Bool) : s.readInFlight? id p = none := by
  rw [State.readInFlight?, h, Option.filter_none]

theorem writeInFlight?_of_none (h : s.inFlight? id = none) (p : Requester → Bool) : s.writeInFlight? id p = none := by
  rw [State.writeInFlight?, h, Option.filter_none]

theorem formatReadArrives_of_none (h : s.inFlight? id = none) (stored : Stored) : formatReadArrives id stored s = s := by
  simp only [formatReadArrives, readInFlight?_of_none h]

theorem formatWriteArrives_of_none (h : s.inFlight? id = none) (report : WriteReport) :
    formatWriteArrives id report s = s := by
  simp only [formatWriteArrives, writeInFlight?_of_none h]

/-- A happening whose own effect is none leaves a quiet state with nothing sent. -/
theorem happening_of_noEffect {body : State → State} (hq : s.quiet = true)
    (hbody : body (beginHappening s) = beginHappening s) : happening body s = beginHappening s := by
  rw [happening_of_quiet, hbody]
  rw [hbody]
  exact (quiet_dressed s Outputs.none s.pending s.link s.health).trans hq

end

/-- Settles O27: no row of a completion finds its operation, so that each one's own effect is none. -/
theorem staleCompletionsHaveNoEffect : Obligations.StaleCompletionsHaveNoEffect := by
  intro id stored report s hnone
  refine ⟨rfl, fun hq c hc => ?_⟩
  have hnone : (beginHappening s).inFlight? id = none := hnone
  have hread := readInFlight?_of_none hnone
  have hwrite := writeInFlight?_of_none hnone
  have hstale : ∀ body : State → State, exec c s = .next (happening body s) →
      body (beginHappening s) = beginHappening s → exec c s = .next { s with out := Outputs.none } :=
    fun body hexec hbody => hexec.trans (congrArg _ (happening_of_noEffect hq hbody))
  fin_cases hc
  · exact hstale _ rfl (by simp only [hread])
  · exact hstale _ rfl (by simp only [hread])
  · exact hstale _ rfl (by simp only [hwrite])
  · exact hstale _ rfl (by simp only [hread])
  · exact hstale _ rfl (by simp only [hwrite])
  · exact hstale _ rfl (by simp only [hwrite])
  · exact hstale _ rfl (by simp only [hwrite])
  · exact hstale _ rfl (formatReadArrives_of_none hnone stored)
  · exact hstale _ rfl (formatWriteArrives_of_none hnone report)
  · exact hstale _ rfl (by simp only [hread])

/-! ### The code and its decoder (R64, R71) -/

theorem eccCheckBytes_xorLine (a b : LineData) :
    eccCheckBytes (xorLine a b) = List.zipWith (· ^^^ ·) (eccCheckBytes a) (eccCheckBytes b) := by
  rw [eccCheckBytes, eccCheckBytes, eccCheckBytes, List.zipWith_map, List.zipWith_self]
  exact List.map_congr_left fun i _ => Config.eccCode.linear a b i

theorem xorLine_self (a : LineData) : xorLine a a = zeroLine :=
  Vector.ext fun i hi => by simp [xorLine, zeroLine]

/-- The zero line is the sum of a line with itself, so by linearity its check bytes are zero. -/
theorem eccCheck_zeroLine (i : Nat) : Config.eccCode.check zeroLine i = 0#8 := by
  rw [← xorLine_self zeroLine, Config.eccCode.linear, BitVec.xor_self]

theorem eccCheckBytes_zeroLine : eccCheckBytes zeroLine = List.replicate Config.eccCode.checkCount 0#8 :=
  (List.map_congr_left fun i _ => eccCheck_zeroLine i).trans (by simp)

/-- Zero check bytes count as zero, and so do those that are not carried. -/
theorem checkBytes_replicate (d : LineData) (n k : Nat) :
    Stored.checkBytes { data := d, check := List.replicate n 0#8 } k = List.replicate k 0#8 := by
  have hzero : ∀ i, (List.replicate n 0#8)[i]?.getD 0#8 = 0#8 := fun i => by
    rw [List.getElem?_replicate]
    split <;> rfl
  simp [Stored.checkBytes, hzero]

/-- An all-zero completion stands for the code word of the zero line, however many check bytes it carries. -/
theorem errorsFrom_allZero (n : Nat) :
    errorsFrom zeroLine { data := zeroLine, check := List.replicate n 0#8 } = 0 := by
  have hword := errorsFrom_codeWord zeroLine
  rw [errorsFrom_eq, codeWord, checkBytes_codeWord, eccCheckBytes_zeroLine] at hword
  rw [errorsFrom_eq, checkBytes_replicate, eccCheckBytes_zeroLine]
  exact hword

/-- Settles O28: the search finds the code word within 4 bits, and linearity gives the zero line's check bytes. -/
theorem decoderCorrectsUpToFourBits : Obligations.DecoderCorrectsUpToFourBits := by
  refine ⟨fun d w => ⟨fun h0 => ?_, fun h1 h4 => ?_, fun e hd he => errorsFrom_unique hd he⟩, fun w hfar => ?_,
    fun d => decodeStored_clean (errorsFrom_codeWord d), fun b hb => ?_, eccCheckBytes_xorLine,
    fun n => decodeStored_clean (errorsFrom_allZero n), fun a => ⟨fun hread => ?_, fun p hwrite => ?_⟩⟩
  · rw [decodeStored_clean h0]
    exact ⟨rfl, rfl⟩
  · rw [decodeStored_corrected h1 h4]
    exact ⟨rfl, rfl⟩
  · rw [decodeStored_uncorrectable hfar]
    exact ⟨rfl, rfl⟩
  · rw [eccCheckBytes_zeroLine] at hb
    exact List.eq_of_mem_replicate hb
  · rw [Attempt.checkBytes, hread]
  · rw [Attempt.checkBytes, hwrite]
    rfl

end Sys2Proof.Machine
end

section
/-! SUPPORT. The deadlines of attempts (R75 to R77) and the quiet of FAILED (R78, R143). -/

namespace Sys2Proof.Machine

/-! ### Nothing follows in FAILED (R143) -/

section
variable {s : State}

theorem not_running_of_failed (hf : s.unit.state = .failed) : s.running = false := by simp [State.running, hf]

theorem not_working_of_failed (hf : s.unit.state = .failed) : s.working = false := by
  simp [State.working, not_running_of_failed hf, hf]

/-- In FAILED, with no checkpoint in progress, every block has stopped. -/
theorem nextFollowUp_of_failed (hf : s.unit.state = .failed) (hc : s.jrn.checkpoint = none) : nextFollowUp s = none := by
  have hrunning := not_running_of_failed hf
  have hworking := not_working_of_failed hf
  have hnone : ∀ e ∈ followUps, (e s).isNone = true := by
    intro e he
    fin_cases he
    · rw [abortComplete?_isNone, hworking]; cases s.mig.current <;> rfl
    · rw [migrationSwitch?_isNone, hworking]; cases s.mig.current <;> rfl
    · simp [creatorJoin?_isNone, hf]
    · simp [flushDone?_isNone, hf]
    · simp [persistDone?_isNone, hf]
    · simp [waitQueueTake?_isNone, hf]
    · simp [persistTake?_isNone, State.notReady, hf]
    · simp [migrationTake?_isNone, hrunning]
    · rw [quiesceEnd?_isNone, State.engineRuns, hrunning, hf]; cases s.mig.current <;> rfl
    · rw [lateCopyStart?_isNone, hworking]; cases s.mig.current <;> rfl
    · simp [drainLockEmptyingEnd?_isNone, hf]
    · simp [closingEmptyingEnd?_isNone, hf]
    · simp [closingCheckpointStart?_isNone, hf]
    · simp [imageFix?_isNone, hc]
    · simp [recordIssue?_isNone, State.mayIssueRecord, hworking, hf]
    · simp [drainIssue?_isNone, hworking]
  simpa [nextFollowUp, List.findSome?_eq_none_iff] using hnone

theorem quiet_of_failed (hf : s.unit.state = .failed) (hc : s.jrn.checkpoint = none) (ha : s.media.arriving = []) :
    s.quiet = true := by
  simp [State.quiet, nextFollowUp_of_failed hf hc, ha, grantOne, hf]

end

/-! ### Entry to FAILED (R48, R78, R143) -/

/-- What a host request is answered at entry to FAILED (R48). -/
def failedResponse (e : TagEntry) : HostResponse :=
  { tag := e.tag, code := if e.standing = .answerHeld then .done else .notReady, data := zeroLine }

theorem foldl_sendHost_failed (l : List TagEntry) (s : State) :
    l.foldl (fun u e => sendHost e.tag (if e.standing = .answerHeld then .done else .notReady) zeroLine u) s =
      s.setOut { s.out with host := s.out.host ++ l.map failedResponse } := by
  induction l generalizing s with
  | nil => simp [State.setOut]
  | cons e l ih =>
    rw [List.foldl_cons, ih]
    simp [sendHost, State.setOut, failedResponse]

/-- Entry to FAILED, field by field (R48, R78, R143). -/
theorem enterFailed_eq {s : State} (cause : FailCause) (hf : s.unit.state ≠ .failed) : enterFailed cause s = { s with
    out := { s.out with host := s.out.host ++ s.host.entries.map failedResponse }
    unit := { s.unit with
      state := .failed, failCause := some cause, safeOrigin := none, stage := none,
      restartPending := false, format := none, recovery := none }
    host := { s.host with entries := [], persists := [] }
    media := { s.media with waiting := [], arriving := [], inflight := [], promoCheckpoint := 0, promoCopy := 0 }
    jrn := { s.jrn with writing := false, checkpoint := none }
    link := { s.link with flags := s.link.flags ||| Event.stateChanged.flag } } := by
  rw [enterFailed, if_neg hf, answerAllFailed, foldl_sendHost_failed]
  rfl

/-! ### Deadlines -/

theorem exec_attemptTimeout_none {place : Fin 8} {s : State} (h : s.overdueAttempt? place = none) :
    exec (.attemptTimeout place) s = .next (settle (beginHappening s)) := by
  have h : (beginHappening s).overdueAttempt? place = none := h
  change Host.Outcome.next (settle (match (beginHappening s).overdueAttempt? place with
    | some op => _
    | none => beginHappening s)) = _
  rw [h]

theorem exec_attemptTimeout_some {place : Fin 8} {op : InFlight} {s : State} (h : s.overdueAttempt? place = some op) :
    exec (.attemptTimeout place) s = .next (settle (attemptTimesOut op (beginHappening s))) := by
  have h : (beginHappening s).overdueAttempt? place = some op := h
  change Host.Outcome.next (settle (match (beginHappening s).overdueAttempt? place with
    | some op => _
    | none => beginHappening s)) = _
  rw [h]

theorem attemptTimesOut_first {op : InFlight} (h : op.id.retry = false) (s : State) :
    attemptTimesOut op s = retryAttempt op s := by
  simp [attemptTimesOut, h]

theorem attemptTimesOut_retry {op : InFlight} (h : op.id.retry = true) (s : State) :
    attemptTimesOut op s = secondTimeout op s := if_pos h

/-- Settles O20: the retry is sent from its place, and after the entry to FAILED nothing follows. -/
theorem deadlinesRetryOnceAndThenFail : Obligations.DeadlinesRetryOnceAndThenFail := by
  refine ⟨fun place s => ⟨fun hnone => exec_attemptTimeout_none hnone, fun op hop hfirst => ?_⟩,
    fun place s op hstate hop hretry => ?_⟩
  · rw [exec_attemptTimeout_some hop, attemptTimesOut_first hfirst]
    rfl
  · have hstate : (raise .mediaFault (recordError op .secondTimeout 0 (beginHappening s))).unit.state ≠ .failed := hstate
    rw [exec_attemptTimeout_some hop, attemptTimesOut_retry hretry, secondTimeout, enterFailed_eq _ hstate,
      settle_of_quiet (quiet_of_failed rfl rfl rfl)]
    rfl

end Sys2Proof.Machine
end

section
/-! SUPPORT. The arbiter: the grantable requests, the class order, the grant, and the arrival order of requests (R66 to R70). -/

namespace Sys2Proof.Machine

/-! ### Grantable requests (R68) -/

/-- The judgement of one waiting request, behind those before it. -/
theorem grantableIn_cons (inflight : List InFlight) (earlier : List MediaRequest) (r : MediaRequest)
    (rest : List MediaRequest) : grantableIn inflight earlier (r :: rest) =
      (if (∀ op ∈ inflight, op.request.physical ≠ r.physical) ∧ ∀ y ∈ earlier, y.physical ≠ r.physical
        then [r] else []) ++ grantableIn inflight (r :: earlier) rest := by
  have hblocked : (inflight.any (fun op => op.request.physical = r.physical) ||
      earlier.any fun e => e.physical = r.physical) = true ↔
      ¬((∀ op ∈ inflight, op.request.physical ≠ r.physical) ∧ ∀ y ∈ earlier, y.physical ≠ r.physical) := by
    simp only [Bool.or_eq_true, List.any_eq_true, decide_eq_true_eq, not_and_or, not_forall, not_not, exists_prop]
  rw [grantableIn, if_congr hblocked rfl rfl, ite_not]
  split <;> rfl

/-- The grantable requests of a list that stands behind others, by their places in the whole list. -/
theorem grantableIn_eq (inflight : List InFlight) (l before earlier : List MediaRequest)
    (hmem : ∀ y, y ∈ earlier ↔ y ∈ before) : grantableIn inflight earlier l =
      ((l.zipIdx before.length).filter fun (x : MediaRequest × Nat) => decide
        ((∀ op ∈ inflight, op.request.physical ≠ x.1.physical) ∧
          ∀ y ∈ (before ++ l).take x.2, y.physical ≠ x.1.physical)).map (·.1) := by
  induction l generalizing before earlier with
  | nil => rfl
  | cons r l ih =>
    have hrest := ih (before ++ [r]) (r :: earlier) (by simp [hmem, or_comm])
    rw [List.length_append, List.length_singleton, List.append_assoc, List.singleton_append] at hrest
    rw [grantableIn_cons, hrest, List.zipIdx_cons, List.filter_cons]
    simp only [hmem, List.take_left, decide_eq_true_eq]
    split <;> rfl

theorem grantables_eq (m : MediaPort) : grantables m =
    (m.waiting.zipIdx.filter fun (x : MediaRequest × Nat) => decide
      ((∀ op ∈ m.inflight, op.request.physical ≠ x.1.physical) ∧
        ∀ y ∈ m.waiting.take x.2, y.physical ≠ x.1.physical)).map (·.1) :=
  grantableIn_eq m.inflight m.waiting [] [] fun _ => Iff.rfl

/-- A grantable request is to a line with no operation in flight (R68). -/
theorem line_free_of_mem_grantables {m : MediaPort} {r : MediaRequest} (h : r ∈ grantables m) :
    ∀ op ∈ m.inflight, op.request.physical ≠ r.physical := by
  rw [grantables_eq, List.mem_map] at h
  obtain ⟨x, hx, rfl⟩ := h
  exact (of_decide_eq_true (List.mem_filter.mp hx).2).1

/-- The one request that waits is grantable where no operation to its line is in flight. -/
theorem grantables_singleton {m : MediaPort} {r : MediaRequest} (hw : m.waiting = [r])
    (hfree : ∀ op ∈ m.inflight, op.request.physical ≠ r.physical) : grantables m = [r] := by
  rw [grantables, hw, grantableIn_cons, if_pos ⟨hfree, by simp⟩]
  rfl

/-! ### The arbiter's choice (R69) -/

/-- The earliest request of the first class that has one. -/
def firstByClass (order : List MediaClass) (rs : List MediaRequest) : Option MediaRequest :=
  order.findSome? fun c => rs.find? fun r => r.cls = c

theorem chooseRequest_eq (m : MediaPort) : chooseRequest m = firstByClass (classOrder m) (grantables m) := rfl

section
variable {order : List MediaClass} {rs : List MediaRequest} {r : MediaRequest}

theorem firstByClass_eq_none_iff (hall : ∀ c, c ∈ order) : firstByClass order rs = none ↔ rs = [] := by
  rw [firstByClass, List.findSome?_eq_none_iff, List.eq_nil_iff_forall_not_mem]
  simp only [List.find?_eq_none, decide_eq_true_eq]
  exact ⟨fun h r hr => h r.cls (hall r.cls) r hr rfl, fun h _ _ r hr => absurd hr (h r)⟩

/-- The earliest of its class, and every class tried before it has none. -/
theorem firstByClass_spec (h : firstByClass order rs = some r) : rs.find? (fun q => q.cls = r.cls) = some r ∧
    ∃ before after, order = before ++ r.cls :: after ∧ ∀ q ∈ rs, q.cls ∉ before := by
  obtain ⟨before, c, after, horder, hfind, hbefore⟩ := List.findSome?_eq_some_iff.mp h
  obtain rfl : r.cls = c := by simpa using List.find?_some hfind
  exact ⟨hfind, before, after, horder, fun q hq hc => by simpa using List.find?_eq_none.mp (hbefore _ hc) q hq⟩

/-- Classes that have no request are passed over. -/
theorem firstByClass_append {skipped : List MediaClass} (h : ∀ q ∈ rs, q.cls ∉ skipped) :
    firstByClass (skipped ++ order) rs = firstByClass order rs := by
  have hnone : skipped.findSome? (fun c => rs.find? fun r => r.cls = c) = none :=
    List.findSome?_eq_none_iff.mpr fun c hc => List.find?_eq_none.mpr fun q hq hqc =>
      h q hq (of_decide_eq_true hqc ▸ hc)
  rw [firstByClass, List.findSome?_append, hnone, Option.none_or]
  rfl

/-- The class tried first is the choice's, where it has a request. -/
theorem firstByClass_head {c : MediaClass} (h : firstByClass (c :: order) rs = some r) (hc : ∃ q ∈ rs, q.cls = c) :
    r.cls = c := by
  obtain ⟨-, before, after, horder, hbefore⟩ := firstByClass_spec h
  obtain ⟨q, hq, rfl⟩ := hc
  cases before with
  | nil => exact (List.cons.inj horder).1.symm
  | cons d before => exact absurd ((List.cons.inj horder).1 ▸ List.mem_cons_self) (hbefore q hq)

/-- In the order of Table 4.2 the choice is of the highest class that has a request. -/
theorem firstByClass_highest (h : firstByClass classesHighestFirst rs = some r) :
    ∀ q ∈ rs, r.cls.code ≤ q.cls.code := by
  obtain ⟨-, before, after, horder, hbefore⟩ := firstByClass_spec h
  have hsorted : classesHighestFirst.Pairwise fun a b => a.code ≤ b.code := by decide
  intro q hq
  have hmem : q.cls ∈ classesHighestFirst := by cases q.cls <;> decide
  rw [horder, List.mem_append, List.mem_cons] at hmem
  rw [horder, List.pairwise_append, List.pairwise_cons] at hsorted
  obtain ⟨-, ⟨hafter, -⟩, -⟩ := hsorted
  rcases hmem with hb | heq | ha
  · exact absurd hb (hbefore q hq)
  · exact heq ▸ le_rfl
  · exact hafter _ ha

/-- A class is not tried ahead of its turn unless it is promoted, and is passed over where it has no request (R69). -/
theorem promoted_passedOver {n : Nat} {c : MediaClass} (h : n ≠ 32 ∨ ∀ q ∈ rs, q.cls ≠ c) :
    ∀ q ∈ rs, q.cls ∉ (if n = Config.promotionLimit then [c] else []) := by
  intro q hq hmem
  split at hmem
  · exact h.elim (fun hn => hn ‹_›) fun hc => hc q hq (List.mem_singleton.mp hmem)
  · exact List.not_mem_nil hmem

end

/-- Every class is tried. -/
theorem mem_classOrder (m : MediaPort) (c : MediaClass) : c ∈ classOrder m := by
  refine List.mem_append_right _ ?_
  cases c <;> decide

theorem chooseRequest_eq_none_iff (m : MediaPort) : chooseRequest m = none ↔ grantables m = [] :=
  firstByClass_eq_none_iff (mem_classOrder m)

section
variable {m : MediaPort} {r : MediaRequest}

theorem mem_grantables_of_choice (h : chooseRequest m = some r) : r ∈ grantables m :=
  List.mem_of_find?_eq_some (firstByClass_spec h).1

theorem choice_of_promotedCheckpoint (h : chooseRequest m = some r) (hp : m.promoCheckpoint = Config.promotionLimit)
    (hc : ∃ q ∈ grantables m, q.cls = .checkpoint) : r.cls = .checkpoint := by
  rw [chooseRequest_eq, classOrder, if_pos hp] at h
  exact firstByClass_head h hc

theorem choice_of_promotedCopy (h : chooseRequest m = some r) (hp : m.promoCopy = Config.promotionLimit)
    (hc : ∃ q ∈ grantables m, q.cls = .copy)
    (hnot : m.promoCheckpoint ≠ 32 ∨ ∀ q ∈ grantables m, q.cls ≠ .checkpoint) : r.cls = .copy := by
  rw [chooseRequest_eq, classOrder, List.append_assoc, firstByClass_append (promoted_passedOver hnot), if_pos hp] at h
  exact firstByClass_head h hc

theorem choice_of_noPromotion (h : chooseRequest m = some r)
    (hcheckpoint : m.promoCheckpoint ≠ 32 ∨ ∀ q ∈ grantables m, q.cls ≠ .checkpoint)
    (hcopy : m.promoCopy ≠ 32 ∨ ∀ q ∈ grantables m, q.cls ≠ .copy) :
    ∀ q ∈ grantables m, r.cls.code ≤ q.cls.code := by
  rw [chooseRequest_eq, classOrder, List.append_assoc, firstByClass_append (promoted_passedOver hcheckpoint),
    firstByClass_append (promoted_passedOver hcopy)] at h
  exact firstByClass_highest h

end

/-! ### The grant (R67, R70) -/

/-- The state after request r is granted in place p, with the promotion counts given (R63, R67, R75). -/
def State.granted (s : State) (r : MediaRequest) (p : Fin 8) (checkpoint copy : Nat) : State := { s with
  out := { s.out with
    media := s.out.media ++ [{ id := ⟨p, s.media.grantCounts[p] + 1, false⟩, kind := r.kind, physical := r.physical }] }
  media := { s.media with
    waiting := s.media.waiting.erase r
    inflight := s.media.inflight ++
      [{ id := ⟨p, s.media.grantCounts[p] + 1, false⟩, request := r, sent := s.time.tick,
         limit := s.time.active.mediaTimeout }]
    grantCounts := s.media.grantCounts.set p (s.media.grantCounts[p] + 1)
    promoCheckpoint := checkpoint
    promoCopy := copy } }

section
variable {s t : State} {r : MediaRequest} {p : Fin 8}

theorem grantOne_eq (hreset : s.unit.state ≠ .reset) (hfailed : s.unit.state ≠ .failed)
    (hp : freeMediaPlace s.media = some p) (hr : chooseRequest s.media = some r) : grantOne s = some (s.granted r p
      (promoAfterGrant .checkpoint r.cls (s.media.waiting.erase r) s.media.promoCheckpoint)
      (promoAfterGrant .copy r.cls (s.media.waiting.erase r) s.media.promoCopy)) := by
  simp only [grantOne, hreset, hfailed, hp, hr, decide_false, Bool.or_self, Bool.false_eq_true, if_false]
  rfl

theorem grantOne_of_noneWaiting (h : s.media.waiting = []) : grantOne s = none := by
  have hnone : chooseRequest s.media = none := (chooseRequest_eq_none_iff _).mpr (by rw [grantables, h]; rfl)
  rw [← Option.isNone_iff_eq_none, grantOne_isNone, hnone]
  simp

theorem grantOne_of_noPlace (h : freeMediaPlace s.media = none) : grantOne s = none := by
  rw [← Option.isNone_iff_eq_none, grantOne_isNone, h]
  simp

theorem grantAll_of_one (ha : s.media.arriving = []) (h : grantOne s = some t) (ht : grantOne t = none) :
    grantAll s = t := by
  have hrun : ∀ n, grantUpTo (n + 1) s = t := fun n => by simp [grantUpTo, h, grantUpTo_of_none ht]
  rw [grantAll, joinWaiting_of_empty ha]
  exact hrun 7

/-- A promotion count after a grant (R70): the other requests of the class wait on. -/
theorem promoAfterGrant_eq {c : MediaClass} {waiting : List MediaRequest} (n : Nat)
    [Decidable (r.cls ≠ c ∧ ∃ q ∈ waiting, q.cls = c)] : promoAfterGrant c r.cls (waiting.erase r) n =
      if r.cls ≠ c ∧ ∃ q ∈ waiting, q.cls = c then min 32 (n + 1) else 0 := by
  by_cases hc : r.cls = c
  · rw [promoAfterGrant, if_pos hc, if_neg fun h => h.1 hc]
  · have hwaits : classWaits c (waiting.erase r) = true ↔ r.cls ≠ c ∧ ∃ q ∈ waiting, q.cls = c := by
      simp only [classWaits, List.any_eq_true, decide_eq_true_eq, Ne, hc, not_false_eq_true, true_and]
      refine exists_congr fun q => and_congr_left fun hq => List.mem_erase_of_ne ?_
      rintro rfl
      exact hc hq
    rw [promoAfterGrant, if_neg hc]
    exact if_congr hwaits rfl rfl

theorem exec_mediaGrant (s : State) : exec .mediaGrant s = .next (settle (grantAll (beginHappening s))) := rfl

/-- The grant of the only waiting request (R67, R70). -/
theorem exec_mediaGrant_only (hreset : s.unit.state ≠ .reset) (hfailed : s.unit.state ≠ .failed)
    (ha : s.media.arriving = []) (hp : freeMediaPlace s.media = some p) (hw : s.media.waiting = [r])
    (hfree : ∀ op ∈ s.media.inflight, op.request.physical ≠ r.physical) :
    exec .mediaGrant s = .next (settle ((beginHappening s).granted r p 0 0)) := by
  have hgrantable := grantables_singleton hw hfree
  have hchoice : chooseRequest s.media = some r := by
    cases hc : chooseRequest s.media with
    | none => simp [(chooseRequest_eq_none_iff _).mp hc] at hgrantable
    | some q => simpa [hgrantable] using mem_grantables_of_choice hc
  have hempty : s.media.waiting.erase r = [] := by simp [hw]
  have hpromo : ∀ c n, promoAfterGrant c r.cls (s.media.waiting.erase r) n = 0 := fun c n => by
    rw [hempty, promoAfterGrant]
    split <;> rfl
  have hgrant := grantOne_eq (s := beginHappening s) hreset hfailed hp hchoice
  rw [show (beginHappening s).media = s.media from rfl, hpromo, hpromo] at hgrant
  rw [exec_mediaGrant, grantAll_of_one (s := beginHappening s) ha hgrant (grantOne_of_noneWaiting hempty)]

/-- The grant of the arbiter's choice in the last free place (R67, R69, R70). -/
theorem exec_mediaGrant_last (hreset : s.unit.state ≠ .reset) (hfailed : s.unit.state ≠ .failed)
    (ha : s.media.arriving = []) (hp : freeMediaPlace s.media = some p) (hr : chooseRequest s.media = some r)
    (hlast : ∀ q, q ≠ p → ∃ op ∈ s.media.inflight, op.id.place = q) :
    exec .mediaGrant s = .next (settle ((beginHappening s).granted r p
      (promoAfterGrant .checkpoint r.cls (s.media.waiting.erase r) s.media.promoCheckpoint)
      (promoAfterGrant .copy r.cls (s.media.waiting.erase r) s.media.promoCopy))) := by
  have hfull : ∀ checkpoint copy, freeMediaPlace ((beginHappening s).granted r p checkpoint copy).media = none := by
    intro checkpoint copy
    rw [freeMediaPlace, List.find?_eq_none]
    intro q _
    simp only [State.granted, List.any_append, Bool.not_eq_true', Bool.not_eq_false]
    by_cases hq : q = p
    · simp [hq]
    · obtain ⟨op, hop, hplace⟩ := hlast q hq
      exact Bool.or_eq_true_iff.mpr (.inl (List.any_eq_true.mpr ⟨op, hop, decide_eq_true hplace⟩))
  rw [exec_mediaGrant, grantAll_of_one (s := beginHappening s) ha (grantOne_eq hreset hfailed hp hr)
    (grantOne_of_noPlace (hfull _ _))]
  rfl

end

/-! ### The arrival order (R66) -/

/-- The requests of one class in their arrival order: host reads in that of their host requests, the others as created. -/
def arrivalsOf (entries : List TagEntry) (rs : List MediaRequest) (c : MediaClass) : List MediaRequest :=
  if c = .hostRead then hostReadOrder entries (rs.filter fun r => r.cls = c) else rs.filter fun r => r.cls = c

theorem inArrivalOrder_eq (entries : List TagEntry) (rs : List MediaRequest) :
    inArrivalOrder entries rs = classesHighestFirst.flatMap (arrivalsOf entries rs) := rfl

section
variable {entries : List TagEntry} {rs : List MediaRequest} {c : MediaClass}

theorem arrivalsOf_perm : (arrivalsOf entries rs c).Perm (rs.filter fun r => r.cls = c) := by
  unfold arrivalsOf
  split
  · exact (hostReadOrder_spec entries _).1
  · exact List.Perm.refl _

theorem cls_of_mem_arrivalsOf {r : MediaRequest} (h : r ∈ arrivalsOf entries rs c) : r.cls = c :=
  of_decide_eq_true (List.mem_filter.mp (arrivalsOf_perm.mem_iff.mp h)).2

/-- Every request is of one of the five classes. -/
theorem inArrivalOrder_perm : (inArrivalOrder entries rs).Perm rs := by
  have hsplit : (inArrivalOrder entries rs).Perm (classesHighestFirst.flatMap fun c => rs.filter fun r => r.cls = c) :=
    List.Perm.flatMap_left _ fun c _ => arrivalsOf_perm
  refine hsplit.trans (List.perm_iff_count.mpr fun r => ?_)
  have hcount : ∀ c, (rs.filter fun q => q.cls = c).count r = if r.cls = c then rs.count r else 0 := by
    intro c
    split
    · exact List.count_filter (decide_eq_true ‹_›)
    · exact List.count_eq_zero.mpr fun hmem => ‹¬_› (of_decide_eq_true (List.mem_filter.mp hmem).2)
  simp only [classesHighestFirst, List.flatMap_cons, List.flatMap_nil, List.count_append, List.count_nil, hcount]
  cases r.cls <;> simp

theorem inArrivalOrder_byClass : (inArrivalOrder entries rs).Pairwise fun a b => a.cls.code ≤ b.cls.code := by
  have hsorted : classesHighestFirst.Pairwise fun a b => a.code ≤ b.code := by decide
  rw [inArrivalOrder_eq, List.pairwise_flatMap]
  constructor
  · intro c _
    exact List.pairwise_of_forall_mem_list fun a ha b hb => by
      rw [cls_of_mem_arrivalsOf ha, cls_of_mem_arrivalsOf hb]
  · refine hsorted.imp fun {c d} hcd a ha b hb => ?_
    rwa [cls_of_mem_arrivalsOf ha, cls_of_mem_arrivalsOf hb]

theorem inArrivalOrder_hostReads : (inArrivalOrder entries rs).Pairwise fun a b =>
    a.cls = .hostRead → b.cls = .hostRead → hostRank entries a ≤ hostRank entries b := by
  have hdistinct : classesHighestFirst.Pairwise (· ≠ ·) := by decide
  rw [inArrivalOrder_eq, List.pairwise_flatMap]
  constructor
  · intro c _
    by_cases hc : c = .hostRead
    · rw [arrivalsOf, if_pos hc]
      exact (hostReadOrder_spec entries _).2.imp fun h _ _ => h
    · exact List.pairwise_of_forall_mem_list fun a ha b _ hread =>
        absurd ((cls_of_mem_arrivalsOf ha).symm.trans hread) hc
  · refine hdistinct.imp fun {c d} hcd a ha b hb hread hread' => absurd ?_ hcd
    rw [← cls_of_mem_arrivalsOf ha, ← cls_of_mem_arrivalsOf hb, hread, hread']

/-- The requests of a class other than HOST_READ stand as they were created. -/
theorem filter_inArrivalOrder (hc : c ≠ .hostRead) :
    ((inArrivalOrder entries rs).filter fun r => r.cls = c) = rs.filter fun r => r.cls = c := by
  have hclass : ∀ d, ((arrivalsOf entries rs d).filter fun r => r.cls = c) =
      if d = c then rs.filter fun r => r.cls = c else [] := by
    intro d
    split
    · rename_i hd
      subst hd
      rw [arrivalsOf, if_neg hc, List.filter_filter]
      simp
    · rename_i hd
      exact List.filter_eq_nil_iff.mpr fun r hr hrc =>
        hd ((cls_of_mem_arrivalsOf hr).symm.trans (of_decide_eq_true hrc))
  rw [inArrivalOrder_eq, List.filter_flatMap]
  simp only [hclass]
  cases c <;> simp [classesHighestFirst]

end

/-- Settles O26: the two grants, the grantable requests and the arbiter's choice, and the arrival order. -/
theorem grantsFollowTheArbiter : Obligations.GrantsFollowTheArbiter := by
  refine ⟨fun r p s hreset hfailed ha hp id granted hid hgranted => ⟨fun hw hfree => ?_, fun count hr hlast hcount => ?_⟩,
    fun m => ⟨chooseRequest_eq_none_iff m, grantables_eq m⟩, fun m r hr => ?_, fun s rank hrank => ?_⟩
  · subst hid
    rw [exec_mediaGrant_only hreset hfailed ha hp hw hfree, hgranted]
    rfl
  · subst hid
    rw [exec_mediaGrant_last hreset hfailed ha hp hr hlast, promoAfterGrant_eq, promoAfterGrant_eq, ← hcount, ← hcount,
      hgranted]
    rfl
  · exact ⟨(firstByClass_spec hr).1, line_free_of_mem_grantables (mem_grantables_of_choice hr),
      choice_of_promotedCheckpoint hr, choice_of_promotedCopy hr, choice_of_noPromotion hr⟩
  · obtain rfl : rank = hostRank s.host.entries := funext hrank
    exact ⟨inArrivalOrder s.host.entries s.media.arriving, rfl, rfl, inArrivalOrder_perm, inArrivalOrder_byClass,
      inArrivalOrder_hostReads, fun c hc => filter_inArrivalOrder hc⟩

end Sys2Proof.Machine
end

section
/-! SUPPORT. That every step keeps the operations in flight apart, one to a place and one to a line (R67, R68), and the
Media Port empty in RESET and FAILED (R63, R78). A lemma `f_keepsPort` follows the definition of `f`; operations that touch
neither the Media Port nor the unit state are passed over by the lemmas of Laws/Frames.lean. -/

namespace Sys2Proof.Machine

-- Each thread of a parallel elaboration takes 1 GiB of the check's limit.
set_option Elab.async false

/-! ### The two invariants of the Media Port -/

/-- No two operations in flight hold one place (R67), and no two are to one physical line (R68). -/
structure MediaPort.Apart (m : MediaPort) : Prop where
  places : (m.inflight.map (·.id.place)).Nodup
  lines : (m.inflight.map (·.request.physical)).Nodup

/-- The Media Port holds no operation, waiting or in flight. -/
structure MediaPort.Idle (m : MediaPort) : Prop where
  waiting : m.waiting = []
  arriving : m.arriving = []
  inflight : m.inflight = []

/-- The unit is in RESET or FAILED. -/
def State.Stopped (s : State) : Prop := s.unit.state = .reset ∨ s.unit.state = .failed

theorem stoppedSound_iff (s : State) : s.StoppedSound ↔ (s.Stopped → s.media.Idle) :=
  ⟨fun h hs => let ⟨hwaiting, harriving, hinflight⟩ := h hs; ⟨hwaiting, harriving, hinflight⟩,
    fun h hs => ⟨(h hs).waiting, (h hs).arriving, (h hs).inflight⟩⟩

/-- From s to t, the Media Port keeps its operations apart, and stays empty where the unit is stopped. -/
structure KeepsPort (s t : State) : Prop where
  apart : s.media.Apart → t.media.Apart
  idle : (s.Stopped → s.media.Idle) → t.Stopped → t.media.Idle

theorem KeepsPort.refl (s : State) : KeepsPort s s := ⟨id, id⟩

theorem KeepsPort.trans {s t u : State} (h : KeepsPort s t) (k : KeepsPort t u) : KeepsPort s u :=
  ⟨k.apart ∘ h.apart, k.idle ∘ h.idle⟩

/-- The one state an outcome `next` names. -/
theorem KeepsPort.of_next {s t v : State} (h : (Host.Outcome.next v : Host.Outcome State Fault Refusal) = .next t)
    (hv : KeepsPort s v) : KeepsPort s t := by
  cases h
  exact hv

/-- What every step of a fold keeps, the fold keeps. -/
theorem foldl_keepsPort {α : Type} {s t : State} (f : State → α → State) (l : List α)
    (hf : ∀ u a, KeepsPort s u → KeepsPort s (f u a)) (h : KeepsPort s t) : KeepsPort s (l.foldl f t) :=
  List.foldlRecOn l f h fun u hu a _ => hf u a hu

variable {s t u : State}

/-- An operation that touches neither the Media Port nor the unit state. -/
theorem KeepsPort.same (h : KeepsPort s t) (hstate : u.unit.state = t.unit.state := by simp)
    (hmedia : u.media = t.media := by simp) : KeepsPort s u where
  apart hs := hmedia ▸ h.apart hs
  idle hs hu := hmedia ▸ h.idle hs (hstate ▸ hu : t.unit.state = .reset ∨ t.unit.state = .failed)

/-- The entry to a state other than RESET and FAILED. -/
theorem KeepsPort.enters (h : KeepsPort s t) (hlive : ¬u.Stopped := by simp [State.Stopped, enterState_unit])
    (hmedia : u.media = t.media := by simp) : KeepsPort s u where
  apart hs := hmedia ▸ h.apart hs
  idle _ hu := absurd hu hlive

theorem setMedia_keepsPort {x : MediaPort} (hapart : t.media.Apart → x.Apart) (hidle : t.media.Idle → x.Idle)
    (h : KeepsPort s t) : KeepsPort s (t.setMedia x) := ⟨hapart ∘ h.apart, fun hs hu => hidle (h.idle hs hu)⟩

/-! ### Media Port -/

theorem request_keepsPort {r : MediaRequest} (h : KeepsPort s t) : KeepsPort s (request r t) := by
  rcases request_cases r t with ⟨-, he⟩ | ⟨⟨hf, hr⟩, he⟩ <;> rw [he]
  · exact h
  · exact ⟨fun hs => ⟨(h.apart hs).places, (h.apart hs).lines⟩, fun _ hu => absurd hu (not_or.mpr ⟨hr, hf⟩)⟩

theorem joinWaiting_keepsPort (h : KeepsPort s t) : KeepsPort s (joinWaiting t) := by
  refine setMedia_keepsPort (fun hm => ⟨hm.places, hm.lines⟩) (fun hm => ⟨?_, rfl, hm.inflight⟩) h
  have hnone : inArrivalOrder t.host.entries t.media.arriving = [] :=
    List.Perm.eq_nil (hm.arriving ▸ inArrivalOrder_perm)
  simp only [hm.waiting, hnone, List.append_nil]

/-- The place and the line of a granted request were free (R67, R68). -/
theorem grantIn_apart {r : MediaRequest} {p : Fin 8} {now : Word32} {limit : Nat} {m : MediaPort}
    (hp : freeMediaPlace m = some p) (hr : chooseRequest m = some r) (hm : m.Apart) :
    (grantIn r p now limit m).1.Apart where
  places := by
    change ((m.inflight ++ [_]).map fun op : InFlight => op.id.place).Nodup
    rw [List.map_append]
    exact hm.places.append (List.nodup_singleton _) (by simpa using freeMediaPlace_free hp)
  lines := by
    change ((m.inflight ++ [_]).map fun op : InFlight => op.request.physical).Nodup
    rw [List.map_append]
    exact hm.lines.append (List.nodup_singleton _)
      (by simpa using line_free_of_mem_grantables (mem_grantables_of_choice hr))

theorem grantOne_keepsPort (h : KeepsPort s t) (hu : grantOne t = some u) : KeepsPort s u := by
  rcases grantOne_cases t with hn | ⟨p, r, hp, hr, hreset, hfailed, he⟩
  · simp [hn] at hu
  · obtain rfl := Option.some.inj (he.symm.trans hu)
    exact ⟨fun hs => grantIn_apart hp hr (h.apart hs), fun _ hstop => absurd hstop (not_or.mpr ⟨hreset, hfailed⟩)⟩

theorem grantUpTo_keepsPort {n : Nat} (h : KeepsPort s t) : KeepsPort s (grantUpTo n t) := by
  induction n generalizing t with
  | zero => exact h
  | succ n ih =>
    unfold grantUpTo
    split
    · exact ih (grantOne_keepsPort h ‹_›)
    · exact h

theorem grantAll_keepsPort (h : KeepsPort s t) : KeepsPort s (grantAll t) :=
  grantUpTo_keepsPort (joinWaiting_keepsPort h)

/-- Operations that leave their places leave the others apart. -/
theorem filterOperations_apart {m x : MediaPort} {p : InFlight → Bool} (hx : x.inflight = m.inflight.filter p)
    (hm : m.Apart) : x.Apart where
  places := hx ▸ hm.places.sublist (List.filter_sublist.map _)
  lines := hx ▸ hm.lines.sublist (List.filter_sublist.map _)

/-- An update of operations that changes neither place nor line keeps them apart. -/
theorem mapOperations_apart {m x : MediaPort} {f : InFlight → InFlight} (hx : x.inflight = m.inflight.map f)
    (hf : ∀ op ∈ m.inflight, (f op).id.place = op.id.place ∧ (f op).request.physical = op.request.physical)
    (hm : m.Apart) : x.Apart where
  places := by
    rw [hx, List.map_map]
    exact (List.map_congr_left fun op hop => (hf op hop).1) ▸ hm.places
  lines := by
    rw [hx, List.map_map]
    exact (List.map_congr_left fun op hop => (hf op hop).2) ▸ hm.lines

theorem freePlaceOf_keepsPort {id : AttemptId} (h : KeepsPort s t) : KeepsPort s (freePlaceOf id t) :=
  setMedia_keepsPort (filterOperations_apart rfl) (fun hm => { hm with inflight := by simp [hm.inflight] }) h

theorem recordError_keepsPort {op : InFlight} {event : MediaEvent} {bits : Nat} (h : KeepsPort s t) :
    KeepsPort s (recordError op event bits t) :=
  setMedia_keepsPort (fun hm => { hm with }) (fun hm => { hm with }) h

/-- An operation in flight is told by its identity, because it alone holds its place. -/
theorem eq_of_id_eq {m : MediaPort} (hm : m.Apart) {a b : InFlight} (ha : a ∈ m.inflight) (hb : b ∈ m.inflight)
    (h : a.id = b.id) : a = b :=
  List.inj_on_of_nodup_map hm.places ha hb (congrArg AttemptId.place h)

theorem sendAttempt_keepsPort {op : InFlight} (h : KeepsPort s t) : KeepsPort s (sendAttempt op t) := h.same

/-- The retry holds the place and the line of the attempt it replaces (R76). -/
theorem retryAttempt_keepsPort {op : InFlight} (hop : op ∈ t.media.inflight) (h : KeepsPort s t) :
    KeepsPort s (retryAttempt op t) := by
  refine sendAttempt_keepsPort (setMedia_keepsPort (fun hm => mapOperations_apart rfl (fun o ho => ?_) hm)
    (fun hm => { hm with inflight := ?_ }) (recordError_keepsPort h))
  · split
    · rename_i hid
      rw [eq_of_id_eq hm ho hop hid]
      exact ⟨rfl, rfl⟩
    · exact ⟨rfl, rfl⟩
  · rw [hm.inflight, List.map_nil]

theorem withdraw_keepsPort {p : MediaRequest → Bool} (h : KeepsPort s t) : KeepsPort s (withdraw p t) :=
  setMedia_keepsPort (fun hm => ⟨hm.places, hm.lines⟩)
    (fun hm => ⟨by simp [hm.waiting], by simp [hm.arriving], hm.inflight⟩) h

theorem orphanCheckpoint_keepsPort (h : KeepsPort s t) : KeepsPort s (orphanCheckpoint t) :=
  setMedia_keepsPort (mapOperations_apart rfl fun op _ => by split <;> exact ⟨rfl, rfl⟩)
    (fun hm => { hm with inflight := by simp [hm.inflight] }) (withdraw_keepsPort h)

theorem abandonUnitWork_keepsPort (h : KeepsPort s t) : KeepsPort s (abandonUnitWork t) :=
  setMedia_keepsPort (filterOperations_apart rfl) (fun hm => { hm with inflight := by simp [hm.inflight] })
    (withdraw_keepsPort h)

/-! ### Absorb Buffer and Host Port -/

theorem issueDrain_keepsPort {p : Fin 4} {sl : Slot} (h : KeepsPort s t) : KeepsPort s (issueDrain p sl t) :=
  request_keepsPort h.same

theorem serveRead_keepsPort {tag : BitVec 5} {line : Nat} (h : KeepsPort s t) : KeepsPort s (serveRead tag line t) := by
  unfold serveRead answerRead
  split
  · exact h.same
  split
  · exact h.same
  split
  · exact h.same
  · exact request_keepsPort h.same

theorem takeRequest_keepsPort {e : TagEntry} (h : KeepsPort s t) : KeepsPort s (takeRequest e t) := by
  unfold takeRequest
  split
  · exact serveRead_keepsPort h
  · split
    · exact h.same
    · exact h.same
  · exact h

theorem takeLine_keepsPort {line n : Nat} (h : KeepsPort s t) : KeepsPort s (takeLine line n t) := by
  induction n generalizing t with
  | zero => exact h
  | succ n ih =>
    unfold takeLine
    split
    · split
      · exact ih (takeRequest_keepsPort h)
      · exact h
    · exact h

theorem arriveRead_keepsPort {tag : BitVec 5} {line : Nat} (h : KeepsPort s t) :
    KeepsPort s (arriveRead tag line t) := by
  unfold arriveRead
  dsimp only
  split
  · exact h.same
  · exact serveRead_keepsPort h.same

theorem arriveWrite_keepsPort {tag : BitVec 5} {line : Nat} {mask : Flags64} {data : LineData} (h : KeepsPort s t) :
    KeepsPort s (arriveWrite tag line mask data t) := by
  unfold arriveWrite
  dsimp only
  split
  · exact h.same
  split
  · exact takeRequest_keepsPort h.same
  · exact h.same

theorem arrivalCheck_keepsPort {tag : BitVec 5} (h : KeepsPort s t) (hu : arrivalCheck tag t = some u) :
    KeepsPort s u :=
  h.same (by simp [arrivalCheck_frame tag t hu]) (by simp [arrivalCheck_frame tag t hu])

theorem hostReadArrives_keepsPort {tag : BitVec 5} {line : Nat} (h : KeepsPort s t) :
    KeepsPort s (hostReadArrives tag line t) := by
  unfold hostReadArrives
  split
  · exact arrivalCheck_keepsPort h ‹_›
  split
  · exact h.same
  · exact arriveRead_keepsPort h

theorem hostWriteArrives_keepsPort {tag : BitVec 5} {line : Nat} {mask : Flags64} {data : LineData}
    (h : KeepsPort s t) : KeepsPort s (hostWriteArrives tag line mask data t) := by
  unfold hostWriteArrives
  split
  · exact arrivalCheck_keepsPort h ‹_›
  split
  · exact h.same
  split
  · exact arriveWrite_keepsPort h
  · exact h.same

theorem refuseWaiting_keepsPort (h : KeepsPort s t) : KeepsPort s (refuseWaiting t) :=
  foldl_keepsPort _ _ (fun _ _ hu => takeRequest_keepsPort hu) (foldl_keepsPort _ _ (fun _ _ hu => hu.same) h)

end Sys2Proof.Machine
end

section
/-! SUPPORT. That the operations of the journal, the engine, Unit Control, FORMAT and recovery keep the Media Port. -/

namespace Sys2Proof.Machine

set_option Elab.async false

variable {s t u : State}

/-! ### Flags, counts, marks and unit states -/

theorem raise_keepsPort {e : Event} (h : KeepsPort s t) : KeepsPort s (raise e t) := h.same

theorem respond_keepsPort {tag : Byte} {status : Status} {results : List Byte} (h : KeepsPort s t) :
    KeepsPort s (respond tag status results t) := h.same

theorem bumpHealth_keepsPort {f : HealthMonitor → HealthMonitor} (h : KeepsPort s t) :
    KeepsPort s (bumpHealth f t) := h.same

theorem setUnit_keepsPort {x : UnitControl} (hx : x.state = t.unit.state) (h : KeepsPort s t) :
    KeepsPort s (t.setUnit x) := h.same hx

theorem enterState_keepsPort {st : UnitState} (h : KeepsPort s t) (hst : st ≠ .reset ∧ st ≠ .failed := by decide) :
    KeepsPort s (enterState st t) := h.enters (not_or.mpr hst)

theorem setPending_keepsPort {x : List Instr} (h : KeepsPort s t) : KeepsPort s (t.setPending x) := h.same

theorem removeHoldMarks_keepsPort (h : KeepsPort s t) : KeepsPort s (removeHoldMarks t) := h.same

theorem unloadTables_keepsPort (h : KeepsPort s t) : KeepsPort s (unloadTables t) := h.same

theorem raiseWear_keepsPort {f : Nat} (h : KeepsPort s t) : KeepsPort s (raiseWear f t) := h.same

theorem raiseCorrected_keepsPort {f : Nat} (h : KeepsPort s t) : KeepsPort s (raiseCorrected f t) := h.same

theorem retireCause_keepsPort {f : Nat} {reason : Reason} (h : KeepsPort s t) :
    KeepsPort s (retireCause f reason t) := h.same

theorem ringTrigger_keepsPort (h : KeepsPort s t) : KeepsPort s (ringTrigger t) := h.same

theorem lateRecord_keepsPort {m : Migration} {i : Nat} (h : KeepsPort s t) : KeepsPort s (lateRecord m i t) := h.same

/-! ### Journal Controller -/

theorem imageFix?_keepsPort (h : imageFix? s = some t) : KeepsPort s t := by
  unfold imageFix? at h
  split at h
  · split at h
    · cases h
      exact request_keepsPort (KeepsPort.refl s).same
    · cases h
  · cases h

theorem issueRecord_keepsPort {r : StagedRecord} {rest : List StagedRecord} (h : KeepsPort s t) :
    KeepsPort s (issueRecord r rest t) := ringTrigger_keepsPort (request_keepsPort h.same)

theorem recordIssue?_keepsPort (h : recordIssue? s = some t) : KeepsPort s t := by
  unfold recordIssue? at h
  split at h
  · split at h
    · cases h
      exact issueRecord_keepsPort (.refl s)
    · cases h
  · cases h

theorem abandonCheckpoint_keepsPort (h : KeepsPort s t) : KeepsPort s (abandonCheckpoint t) := by
  unfold abandonCheckpoint
  dsimp only
  split
  · exact orphanCheckpoint_keepsPort h.same
  · exact h.same

/-! ### Media outcomes (R67, R72 to R74) -/

theorem readOutcome_keepsPort {α : Type} {op : InFlight} {o : ReadOutcome α} (h : KeepsPort s t) :
    KeepsPort s (readOutcome op o t) := by
  cases o with
  | clean d => exact freePlaceOf_keepsPort h
  | corrected k d => exact raiseCorrected_keepsPort (recordError_keepsPort (bumpHealth_keepsPort (freePlaceOf_keepsPort h)))
  | uncorrectable => exact recordError_keepsPort (bumpHealth_keepsPort (freePlaceOf_keepsPort h))

theorem writeOutcome_keepsPort {op : InFlight} {report : WriteReport} (h : KeepsPort s t) :
    KeepsPort s (writeOutcome op report t) := by
  cases report with
  | stored => exact raiseWear_keepsPort (freePlaceOf_keepsPort h)
  | programFail => exact recordError_keepsPort (bumpHealth_keepsPort (raiseWear_keepsPort (freePlaceOf_keepsPort h)))

/-! ### Migration Engine -/

theorem setLatch_keepsPort (h : KeepsPort s t) : KeepsPort s (setLatch t) := by
  unfold setLatch
  dsimp only
  split
  · exact refuseWaiting_keepsPort h.enters
  · exact h.same

theorem startCopy_keepsPort {i : Nat} (h : KeepsPort s t) : KeepsPort s (startCopy i t) := by
  unfold startCopy
  split
  · exact request_keepsPort h
  · exact h

theorem spareExhausted_keepsPort {m : Migration} (h : KeepsPort s t) : KeepsPort s (spareExhausted m t) := by
  have hlatch : KeepsPort s (setLatch (setFailMark m.logical false
      (updFrame m.source (fun r => { r with overdue := true }) t))) := setLatch_keepsPort h.same
  exact hlatch.same (by simp [spareExhausted]) (by simp [spareExhausted])

theorem askTarget_keepsPort {m : Migration} (h : KeepsPort s t) : KeepsPort s (askTarget m t) := by
  unfold askTarget
  split
  · exact startCopy_keepsPort h.same
  split
  · exact spareExhausted_keepsPort h
  · exact h.same

theorem quiesceEnd?_keepsPort (h : quiesceEnd? s = some t) : KeepsPort s t := by
  unfold quiesceEnd? at h
  split at h
  · split at h
    · cases h
      exact askTarget_keepsPort (.refl s)
    · cases h
  · cases h

theorem copyLineDone_keepsPort {m : Migration} (h : KeepsPort s t) : KeepsPort s (copyLineDone m t) := by
  unfold copyLineDone
  split
  · exact startCopy_keepsPort h.same
  · exact h.same

theorem takeAbort_keepsPort (h : KeepsPort s t) : KeepsPort s (takeAbort t) := withdraw_keepsPort h.same

theorem copyReadOutcome_keepsPort {m : Migration} {o : ReadOutcome LineData} (h : KeepsPort s t) :
    KeepsPort s (copyReadOutcome m o t) := by
  unfold copyReadOutcome
  split
  · split
    · exact h.same
    · exact h
  split
  · exact request_keepsPort h
  · exact retireCause_keepsPort (request_keepsPort h.same)

theorem copyWriteOutcome_keepsPort {m : Migration} {report : WriteReport} (h : KeepsPort s t) :
    KeepsPort s (copyWriteOutcome m report t) := by
  unfold copyWriteOutcome
  split
  · split
    · exact h
    · exact copyLineDone_keepsPort h
  · dsimp only
    split
    · exact h.same
    · exact askTarget_keepsPort h.same

theorem lateCopyStart?_keepsPort (h : lateCopyStart? s = some t) : KeepsPort s t := by
  unfold lateCopyStart? at h
  split at h
  · split at h
    · split at h
      · cases h
        exact startCopy_keepsPort (KeepsPort.refl s).same
      · cases h
    · cases h
  · cases h

theorem lateReadOutcome_keepsPort {m : Migration} {c : LateCopy} {o : ReadOutcome LineData} (h : KeepsPort s t) :
    KeepsPort s (lateReadOutcome m c o t) := by
  unfold lateReadOutcome
  split
  · exact request_keepsPort h
  · exact retireCause_keepsPort (lateRecord_keepsPort (request_keepsPort h.same))

/-! ### Unit Control -/

/-- At entry to FAILED every operation ends without result (R78). -/
theorem enterFailed_keepsPort {cause : FailCause} (h : KeepsPort s t) : KeepsPort s (enterFailed cause t) := by
  by_cases hf : t.unit.state = .failed
  · rwa [enterFailed, if_pos hf]
  · rw [enterFailed_eq cause hf]
    exact ⟨fun _ => ⟨List.nodup_nil, List.nodup_nil⟩, fun _ _ => ⟨rfl, rfl, rfl⟩⟩

/-- The hard reset empties the Media Port (R80, R144). -/
theorem hardReset_keepsPort : KeepsPort s (hardReset t) :=
  ⟨fun _ => ⟨List.nodup_nil, List.nodup_nil⟩, fun _ _ => ⟨rfl, rfl, rfl⟩⟩

theorem abandonToSafe_keepsPort (h : KeepsPort s t) : KeepsPort s (abandonToSafe t) :=
  enterState_keepsPort (setUnit_keepsPort rfl (unloadTables_keepsPort (abandonUnitWork_keepsPort h)))

theorem startRecovery_keepsPort (h : KeepsPort s t) : KeepsPort s (startRecovery t) := by
  unfold startRecovery
  dsimp only
  split
  · exact abandonToSafe_keepsPort h.enters
  · exact request_keepsPort h.enters

theorem volatileReset_keepsPort : KeepsPort s (volatileReset t) := 
  startRecovery_keepsPort ((hardReset_keepsPort (t := t)).same)

theorem leaveSafe_keepsPort (h : KeepsPort s t) : KeepsPort s (leaveSafe t) := by
  refine h.enters ?_
  rw [State.Stopped, leaveSafe_state]
  split <;> simp

theorem leaveSafeDrainLock_keepsPort (h : KeepsPort s t) : KeepsPort s (leaveSafeDrainLock t) := by
  unfold leaveSafeDrainLock
  split
  · exact leaveSafe_keepsPort h
  · exact startRecovery_keepsPort h

theorem enterSafe_keepsPort {origin : SafeOrigin} (h : KeepsPort s t) : KeepsPort s (enterSafe origin t) := by
  unfold enterSafe
  dsimp only
  split
  · exact leaveSafeDrainLock_keepsPort (abandonCheckpoint_keepsPort h).enters
  · exact (abandonCheckpoint_keepsPort h).enters

theorem closingEnds_keepsPort (h : KeepsPort s t) : KeepsPort s (closingEnds t) := by
  unfold closingEnds
  split
  · exact volatileReset_keepsPort
  · exact enterSafe_keepsPort h

theorem shutdownDurable_keepsPort (h : KeepsPort s t) : KeepsPort s (shutdownDurable t) := by
  unfold shutdownDurable
  split
  · exact enterSafe_keepsPort h
  split
  · exact closingEnds_keepsPort h
  · exact h

theorem abortForDrainLock_keepsPort (h : KeepsPort s t) : KeepsPort s (abortForDrainLock t) := by
  unfold abortForDrainLock
  split
  · split
    · exact takeAbort_keepsPort h
    · exact h
  · exact h

theorem enterDrainLock_keepsPort (h : KeepsPort s t) : KeepsPort s (enterDrainLock t) :=
  refuseWaiting_keepsPort (removeHoldMarks_keepsPort (abandonCheckpoint_keepsPort (abortForDrainLock_keepsPort
    (h.enters (u := emptyQueue _)))))

theorem enterClosing_keepsPort {restart : Bool} (h : KeepsPort s t) : KeepsPort s (enterClosing restart t) :=
  refuseWaiting_keepsPort h.enters

theorem toShutdown_keepsPort (h : KeepsPort s t) : KeepsPort s (toShutdown t) :=
  h.same (by simp [toShutdown])

theorem drainLockEmptyingEnd?_keepsPort (h : drainLockEmptyingEnd? s = some t) : KeepsPort s t := by
  unfold drainLockEmptyingEnd? at h
  split at h <;> cases h
  exact toShutdown_keepsPort (.refl s)

theorem closingEmptyingEnd?_keepsPort (h : closingEmptyingEnd? s = some t) : KeepsPort s t := by
  unfold closingEmptyingEnd? at h
  split at h <;> cases h
  exact (KeepsPort.refl s).same

theorem commitCheckpoint_keepsPort {c : Checkpoint} (h : KeepsPort s t) : KeepsPort s (commitCheckpoint c t) := by
  unfold commitCheckpoint
  dsimp only
  split
  · exact closingEnds_keepsPort h.same
  · exact h.same

theorem failCheckpoint_keepsPort {c : Checkpoint} (h : KeepsPort s t) : KeepsPort s (failCheckpoint c t) := by
  unfold failCheckpoint
  dsimp only
  split
  · exact toShutdown_keepsPort h.same
  · exact h.same

theorem imageLineDone_keepsPort {c : Checkpoint} (h : KeepsPort s t) : KeepsPort s (imageLineDone c t) := by
  unfold imageLineDone
  dsimp only
  split <;> exact request_keepsPort h.same

theorem checkpointOutcome_keepsPort {report : WriteReport} (h : KeepsPort s t) :
    KeepsPort s (checkpointOutcome report t) := by
  unfold checkpointOutcome
  split
  · split
    · exact failCheckpoint_keepsPort h
    · exact imageLineDone_keepsPort h
    · exact commitCheckpoint_keepsPort h
    · exact h
  · exact h

/-! ### What follows drains and records -/

theorem drainToWrite_keepsPort {d : Drain} {line : LineData} (h : KeepsPort s t) :
    KeepsPort s (drainToWrite d line t) := request_keepsPort h.same

theorem fillOutcome_keepsPort {d : Drain} {o : ReadOutcome LineData} (h : KeepsPort s t) :
    KeepsPort s (fillOutcome d o t) := by
  unfold fillOutcome
  split
  · exact drainToWrite_keepsPort h
  · dsimp only
    split
    · exact drainToWrite_keepsPort h.same
    · exact h.same

theorem drainRecordDurable_keepsPort {d : Drain} (h : KeepsPort s t) : KeepsPort s (drainRecordDurable d t) := by
  unfold drainRecordDurable
  dsimp only
  split
  · exact drainToWrite_keepsPort h.same
  · exact h.same
  · exact h.same

theorem recordEffect_keepsPort {c : Creator} {r : JournalRecord} (h : KeepsPort s t) :
    KeepsPort s (recordEffect c r t) := by
  unfold recordEffect
  split
  · exact h.same
  · split
    · exact drainRecordDurable_keepsPort h
    · exact h
  · exact h.same
  · exact h.same
  · exact shutdownDurable_keepsPort h
  · exact h

theorem recordOutcome_keepsPort {report : WriteReport} (h : KeepsPort s t) :
    KeepsPort s (recordOutcome report t) := by
  unfold recordOutcome
  dsimp only
  split
  · exact recordEffect_keepsPort h.same
  · exact h.same

/-! ### FORMAT -/

theorem startFormat_keepsPort {spares retireWear : Nat} (h : KeepsPort s t) :
    KeepsPort s (startFormat spares retireWear t) := request_keepsPort h.enters

theorem requestFormatStep_keepsPort {w : FormatWork} (h : KeepsPort s t) : KeepsPort s (requestFormatStep w t) :=
  request_keepsPort h.same

theorem formatWriteOutcome_keepsPort {w : FormatWork} {report : WriteReport} (h : KeepsPort s t) :
    KeepsPort s (formatWriteOutcome w report t) := by
  unfold formatWriteOutcome
  split
  · exact enterFailed_keepsPort h
  · dsimp only
    split
    · exact requestFormatStep_keepsPort h
    · exact h.enters (by simp [State.Stopped, completeFormat, enterState_unit])

/-! ### Recovery -/

theorem readNext_keepsPort {w : RecoveryWork} {p : Nat} (h : KeepsPort s t) : KeepsPort s (readNext w p t) :=
  request_keepsPort h.same

theorem endUnformatted_keepsPort {standing : Standing} {found : Option GeometryRecord} (h : KeepsPort s t) :
    KeepsPort s (endUnformatted standing found t) := h.enters (by simp [State.Stopped, endUnformatted, enterState_unit])

theorem recoverGeometry_keepsPort {w : RecoveryWork} {delivered : Option MetaLine} (h : KeepsPort s t) :
    KeepsPort s (recoverGeometry w delivered t) := by
  unfold recoverGeometry
  split
  · exact endUnformatted_keepsPort h
  split
  · exact endUnformatted_keepsPort h
  · exact readNext_keepsPort h.same

theorem readImage_keepsPort {w : RecoveryWork} (h : KeepsPort s t) : KeepsPort s (readImage w t) := by
  unfold readImage
  split
  · exact readNext_keepsPort h
  · exact enterFailed_keepsPort h

theorem rejectArea_keepsPort {b : Bool} {w : RecoveryWork} (h : KeepsPort s t) : KeepsPort s (rejectArea b w t) :=
  readImage_keepsPort h

theorem judgeImage_keepsPort {area : Area} {x : CheckpointHeader} {g : GeometryRecord} {i : ImageWork}
    {w : RecoveryWork} (h : KeepsPort s t) : KeepsPort s (judgeImage area x g i w t) := by
  unfold judgeImage
  split
  · exact rejectArea_keepsPort h
  · dsimp only
    split
    · exact readNext_keepsPort h.same
    · exact rejectArea_keepsPort h

theorem recoverImageLine_keepsPort {x : ImageWork} {w : RecoveryWork} {delivered : Option MetaLine}
    (h : KeepsPort s t) : KeepsPort s (recoverImageLine x w delivered t) := by
  unfold recoverImageLine
  split
  · dsimp only
    split
    · exact readNext_keepsPort h
    · split
      · exact judgeImage_keepsPort h
      · exact rejectArea_keepsPort h
  · exact rejectArea_keepsPort h

/-- Replay ends in ONLINE or WRITE_PROTECTED (R153). -/
theorem endReplay_keepsPort {area : Area} {x : CheckpointHeader} {g : GeometryRecord} {r : ReplayWork}
    {truncated : Bool} {w : RecoveryWork} (h : KeepsPort s t) : KeepsPort s (endReplay area x g r truncated w t) := by
  refine h.enters ?_
  unfold endReplay
  dsimp only
  generalize (loadTables _ _ : State).map.latch = latch
  cases cleanShutdown x r.applied <;> cases latch <;> simp [State.Stopped, enterState_unit]

theorem recoverSlot_keepsPort {x : ReplayWork} {w : RecoveryWork} {delivered : Option MetaLine} (h : KeepsPort s t) :
    KeepsPort s (recoverSlot x w delivered t) := by
  unfold recoverSlot
  split
  · split
    · dsimp only
      split
      · exact endReplay_keepsPort h
      · exact endReplay_keepsPort h
      · split
        · exact readNext_keepsPort h
        · exact endReplay_keepsPort h
    · exact h
  · exact h

theorem recoveryOutcome_keepsPort {w : RecoveryWork} {delivered : Option MetaLine} (h : KeepsPort s t) :
    KeepsPort s (recoveryOutcome w delivered t) := by
  unfold recoveryOutcome
  split
  · exact recoverGeometry_keepsPort h
  · exact readNext_keepsPort h
  · exact readImage_keepsPort h
  · exact recoverImageLine_keepsPort h
  · exact recoverSlot_keepsPort h

end Sys2Proof.Machine
end

section
/-! SUPPORT. That the rest of a happening, every command and so every step keep the Media Port. -/

namespace Sys2Proof.Machine

set_option Elab.async false

variable {s t u : State}

/-! ### The rest of a happening -/

theorem waitQueueTake?_keepsPort (h : waitQueueTake? s = some t) : KeepsPort s t := by
  unfold waitQueueTake? at h
  split at h
  · split at h
    · cases h
      exact takeLine_keepsPort (.refl s)
    · cases h
  · cases h

theorem drainIssue?_keepsPort (h : drainIssue? s = some t) : KeepsPort s t := by
  unfold drainIssue? at h
  split at h
  · split at h
    · cases h
      exact issueDrain_keepsPort (.refl s)
    · cases h
  · cases h

/-- A follow-up event that touches neither the Media Port nor the unit state. -/
theorem KeepsPort.of_frame (h : t.unit = s.unit ∧ t.media = s.media) : KeepsPort s t :=
  (KeepsPort.refl s).same (congrArg UnitControl.state h.1) h.2

theorem abortComplete?_keepsPort (h : abortComplete? s = some t) : KeepsPort s t :=
  .of_frame (by simp [abortComplete?_frame s h])

theorem migrationSwitch?_keepsPort (h : migrationSwitch? s = some t) : KeepsPort s t :=
  .of_frame (by simp [migrationSwitch?_frame s h])

theorem creatorJoin?_keepsPort (h : creatorJoin? s = some t) : KeepsPort s t :=
  .of_frame (by simp [creatorJoin?_frame s h])

theorem flushDone?_keepsPort (h : flushDone? s = some t) : KeepsPort s t :=
  .of_frame (by simp [flushDone?_frame s h])

theorem persistDone?_keepsPort (h : persistDone? s = some t) : KeepsPort s t :=
  .of_frame (by simp [persistDone?_frame s h])

theorem persistTake?_keepsPort (h : persistTake? s = some t) : KeepsPort s t :=
  .of_frame (by simp [persistTake?_frame s h])

theorem migrationTake?_keepsPort (h : migrationTake? s = some t) : KeepsPort s t :=
  .of_frame (by simp [migrationTake?_frame s h])

theorem closingCheckpointStart?_keepsPort (h : closingCheckpointStart? s = some t) : KeepsPort s t :=
  .of_frame (by simp [closingCheckpointStart?_frame s h])

theorem nextFollowUp_keepsPort (h : nextFollowUp s = some t) : KeepsPort s t := by
  rcases nextFollowUp_cases h with h | h | h | h | h | h | h | h | h | h | h | h | h | h | h | h
  · exact abortComplete?_keepsPort h
  · exact migrationSwitch?_keepsPort h
  · exact creatorJoin?_keepsPort h
  · exact flushDone?_keepsPort h
  · exact persistDone?_keepsPort h
  · exact waitQueueTake?_keepsPort h
  · exact persistTake?_keepsPort h
  · exact migrationTake?_keepsPort h
  · exact quiesceEnd?_keepsPort h
  · exact lateCopyStart?_keepsPort h
  · exact drainLockEmptyingEnd?_keepsPort h
  · exact closingEmptyingEnd?_keepsPort h
  · exact closingCheckpointStart?_keepsPort h
  · exact imageFix?_keepsPort h
  · exact recordIssue?_keepsPort h
  · exact drainIssue?_keepsPort h

theorem settle_keepsPort (h : KeepsPort s t) : KeepsPort s (settle t) :=
  settle_induct (KeepsPort s) (fun _ _ hu hv => hu.trans (nextFollowUp_keepsPort hv))
    (fun _ hu => grantAll_keepsPort hu) t h

theorem beginHappening_keepsPort : KeepsPort s (beginHappening s) := (KeepsPort.refl s).same

/-- A happening keeps what the command's own effect keeps. -/
theorem happening_keepsPort {body : State → State} (hbody : ∀ u, KeepsPort u (body u)) :
    KeepsPort s (happening body s) := settle_keepsPort (beginHappening_keepsPort.trans (hbody _))

/-- A happening whose command touches neither the Media Port nor the unit state. -/
theorem happening_keepsPort_of_same {body : State → State}
    (hbody : ∀ u, (body u).unit = u.unit ∧ (body u).media = u.media) : KeepsPort s (happening body s) :=
  happening_keepsPort fun u => .of_frame (hbody u)

/-- A follow-up event commanded by name (log entry 3). -/
theorem performed_keepsPort {e : State → Option State} (he : ∀ u v, e u = some v → KeepsPort u v) :
    KeepsPort s (happening (perform e) s) := by
  refine happening_keepsPort fun u => ?_
  unfold perform
  cases h : e u with
  | none => exact .refl u
  | some v => exact he u v h

/-! ### Pins and time -/

theorem assertReset_keepsPort : KeepsPort s (assertReset s) := by
  unfold assertReset
  split
  · exact .refl s
  · exact hardReset_keepsPort

theorem releaseReset_keepsPort {sizeStraps : BitVec 6} {addrStraps : BitVec 2} :
    KeepsPort s (releaseReset sizeStraps addrStraps s) := by
  unfold releaseReset
  split
  · exact startRecovery_keepsPort (KeepsPort.refl s).same
  · exact .refl s

theorem warningAsserted_keepsPort (h : KeepsPort s t) : KeepsPort s (warningAsserted t) := by
  unfold warningAsserted
  split
  · exact enterDrainLock_keepsPort h
  · exact enterDrainLock_keepsPort h
  · exact enterDrainLock_keepsPort h
  · exact abandonToSafe_keepsPort h
  · exact abandonToSafe_keepsPort h
  all_goals exact h

theorem assertHoldUp_keepsPort : KeepsPort s (assertHoldUp s) := by
  unfold assertHoldUp
  split
  · exact .refl s
  · exact warningAsserted_keepsPort (KeepsPort.refl s).same

theorem deassertHoldUp_keepsPort : KeepsPort s (deassertHoldUp s) := by
  unfold deassertHoldUp
  split
  · dsimp only
    split
    · exact leaveSafeDrainLock_keepsPort (KeepsPort.refl s).same
    · exact (KeepsPort.refl s).same
  · exact .refl s

theorem execSweepBoundary_keepsPort (h : execSweepBoundary s = .next t) : KeepsPort s t := by
  refine .of_next h (happening_keepsPort fun u => ?_)
  split
  · exact (KeepsPort.refl u).same
  · exact .refl u

/-- An attempt that times out is in flight. -/
theorem mem_of_overdueAttempt? {place : Fin 8} {op : InFlight} (h : s.overdueAttempt? place = some op) :
    op ∈ s.media.inflight := List.mem_of_find?_eq_some h

theorem attemptTimesOut_keepsPort {op : InFlight} (hop : op ∈ s.media.inflight) : KeepsPort s (attemptTimesOut op s) := by
  unfold attemptTimesOut
  split
  · exact enterFailed_keepsPort (raise_keepsPort (recordError_keepsPort (.refl s)))
  · exact retryAttempt_keepsPort hop (.refl s)

theorem execAttemptTimeout_keepsPort {place : Fin 8} (h : execAttemptTimeout place s = .next t) : KeepsPort s t := by
  refine .of_next h (happening_keepsPort fun u => ?_)
  split
  · exact attemptTimesOut_keepsPort (mem_of_overdueAttempt? ‹_›)
  · exact .refl u

/-- A tick changes the counter and the queue of commands (R170). -/
theorem tick_keepsPort : KeepsPort s (tick s) := by
  unfold tick
  split
  · exact .refl s
  · exact (KeepsPort.refl s).same

/-! ### The medium's completions -/

theorem returnRead_keepsPort {tag : BitVec 5} {line : Nat} {o : ReadOutcome LineData} (h : KeepsPort s t) :
    KeepsPort s (returnRead tag line o t) := by
  unfold returnRead answerRead
  split
  · exact h.same
  split
  · exact h.same
  split
  · exact h.same
  split <;> exact h.same

theorem hostReadOutcome_keepsPort {op : InFlight} {o : ReadOutcome LineData} (h : KeepsPort s t) :
    KeepsPort s (hostReadOutcome op o t) := by
  have hreport : KeepsPort s
      (match o with
        | .uncorrectable => retireCause (frameOf op.request.physical) .retireError (readOutcome op o t)
        | _ => readOutcome op o t) := by
    split
    · exact retireCause_keepsPort (readOutcome_keepsPort h)
    · exact readOutcome_keepsPort h
  unfold hostReadOutcome
  dsimp only
  split
  · split
    · exact returnRead_keepsPort hreport
    · exact hreport
  · exact hreport

theorem execHostReadReturn_keepsPort {id : AttemptId} {stored : Stored} (h : execHostReadReturn id stored s = .next t) :
    KeepsPort s t := by
  refine .of_next h (happening_keepsPort fun u => ?_)
  split
  · exact hostReadOutcome_keepsPort (.refl u)
  · exact .refl u

theorem execFillReadComplete_keepsPort {id : AttemptId} {stored : Stored}
    (h : execFillReadComplete id stored s = .next t) : KeepsPort s t := by
  refine .of_next h (happening_keepsPort fun u => ?_)
  dsimp only
  split
  · split
    · exact fillOutcome_keepsPort (readOutcome_keepsPort (.refl u))
    · exact readOutcome_keepsPort (.refl u)
  · exact .refl u

theorem execDrainWriteComplete_keepsPort {id : AttemptId} {report : WriteReport}
    (h : execDrainWriteComplete id report s = .next t) : KeepsPort s t := by
  refine .of_next h (happening_keepsPort fun u => ?_)
  dsimp only
  split
  · rename_i op _
    have hout : KeepsPort u (writeOutcome op report u) := writeOutcome_keepsPort (.refl u)
    split
    · exact hout.same
    · exact hout.same
    · exact hout
  · exact .refl u

theorem engineRead_keepsPort {o : ReadOutcome LineData} (h : KeepsPort s t) : KeepsPort s (engineRead o t) := by
  unfold engineRead
  split
  · split
    · exact copyReadOutcome_keepsPort h
    · exact lateReadOutcome_keepsPort h
    · exact h
  · exact h

theorem engineWrite_keepsPort {report : WriteReport} (h : KeepsPort s t) : KeepsPort s (engineWrite report t) := by
  unfold engineWrite
  split
  · split
    · exact copyWriteOutcome_keepsPort h
    · exact h.same
    · exact h.same
    · exact h
  · exact h

theorem execCopyReadComplete_keepsPort {id : AttemptId} {stored : Stored}
    (h : execCopyReadComplete id stored s = .next t) : KeepsPort s t := by
  refine .of_next h (happening_keepsPort fun u => ?_)
  dsimp only
  split
  · exact engineRead_keepsPort (readOutcome_keepsPort (.refl u))
  · exact .refl u

theorem execCopyWriteComplete_keepsPort {id : AttemptId} {report : WriteReport}
    (h : execCopyWriteComplete id report s = .next t) : KeepsPort s t := by
  refine .of_next h (happening_keepsPort fun u => ?_)
  split
  · exact engineWrite_keepsPort (writeOutcome_keepsPort (.refl u))
  · exact .refl u

theorem execRecordWriteComplete_keepsPort {id : AttemptId} {report : WriteReport}
    (h : execRecordWriteComplete id report s = .next t) : KeepsPort s t := by
  refine .of_next h (happening_keepsPort fun u => ?_)
  split
  · exact recordOutcome_keepsPort (writeOutcome_keepsPort (.refl u))
  · exact .refl u

theorem execCheckpointLineComplete_keepsPort {id : AttemptId} {report : WriteReport}
    (h : execCheckpointLineComplete id report s = .next t) : KeepsPort s t := by
  refine .of_next h (happening_keepsPort fun u => ?_)
  dsimp only
  split
  · split
    · exact checkpointOutcome_keepsPort (writeOutcome_keepsPort (.refl u))
    · exact writeOutcome_keepsPort (.refl u)
  · exact .refl u

theorem formatReadArrives_keepsPort {id : AttemptId} {stored : Stored} :
    KeepsPort s (formatReadArrives id stored s) := by
  unfold formatReadArrives
  split
  · exact requestFormatStep_keepsPort (readOutcome_keepsPort (.refl s))
  · exact .refl s

theorem formatWriteArrives_keepsPort {id : AttemptId} {report : WriteReport} :
    KeepsPort s (formatWriteArrives id report s) := by
  unfold formatWriteArrives
  split
  · exact formatWriteOutcome_keepsPort (writeOutcome_keepsPort (.refl s))
  · exact .refl s

theorem execFormatOperationComplete_keepsPort {id : AttemptId} {completion : FormatCompletion}
    (h : execFormatOperationComplete id completion s = .next t) : KeepsPort s t := by
  refine .of_next h (happening_keepsPort fun u => ?_)
  cases completion with
  | read stored => exact formatReadArrives_keepsPort
  | write report => exact formatWriteArrives_keepsPort

theorem execRecoveryReadComplete_keepsPort {id : AttemptId} {stored : Stored}
    (h : execRecoveryReadComplete id stored s = .next t) : KeepsPort s t := by
  refine .of_next h (happening_keepsPort fun u => ?_)
  dsimp only
  split
  · exact recoveryOutcome_keepsPort (readOutcome_keepsPort (.refl u))
  · exact .refl u

/-! ### The management link -/

theorem judge_keepsPort {tag : Byte} {params : List Byte} {len : Nat} {permitted argsOk : State → Bool}
    {run : State → State} (hrun : KeepsPort s (run t)) (h : KeepsPort s t) :
    KeepsPort s (judge tag params len permitted argsOk run t) := by
  rcases judge_cases tag params len permitted argsOk run t with
    ⟨-, he⟩ | ⟨-, he⟩ | ⟨-, -, he⟩ | ⟨-, -, -, he⟩ | ⟨-, -, -, he⟩ <;> rw [he]
  exacts [h, h.same, h.same, h.same, hrun]

/-- A request whose execution is its response alone. -/
theorem judgeBegun_keepsPort {tag : Byte} {params : List Byte} {len : Nat} {permitted argsOk : State → Bool}
    {run : State → State} (hrun : ∀ u, KeepsPort u (run u)) :
    KeepsPort s (judge tag params len permitted argsOk run (beginHappening s)) :=
  judge_keepsPort (beginHappening_keepsPort.trans (hrun _)) beginHappening_keepsPort

/-- A request executed in a happening. -/
theorem judged_keepsPort {tag : Byte} {params : List Byte} {len : Nat} {permitted argsOk : State → Bool}
    {run : State → State} (hrun : ∀ u, KeepsPort u (run u)) :
    KeepsPort s (happening (judge tag params len permitted argsOk run) s) :=
  happening_keepsPort fun u => judge_keepsPort (hrun u) (.refl u)

theorem answerOk_keepsPort {tag : Byte} {results : State → List Byte} : KeepsPort s (answerOk tag results s) :=
  respond_keepsPort (.refl s)

theorem setFence_keepsPort {tag : Byte} {params : List Byte} : KeepsPort s (setFence tag params s) := by
  unfold setFence
  dsimp only
  split <;> exact judge_keepsPort (KeepsPort.refl s).same (.refl s)

theorem restartNow_keepsPort {tag : Byte} : KeepsPort s (restartNow tag s) := by
  unfold restartNow
  split
  · exact respond_keepsPort (enterClosing_keepsPort (.refl s))
  · exact respond_keepsPort volatileReset_keepsPort

theorem formatNow_keepsPort {tag : Byte} {spares retireWear : Nat} :
    KeepsPort s (formatNow tag spares retireWear s) := by
  unfold formatNow
  split
  · exact respond_keepsPort (.refl s)
  · exact respond_keepsPort (startFormat_keepsPort (.refl s))

theorem execResponseRead_keepsPort {n : Nat} (h : execResponseRead n s = .next t) : KeepsPort s t := by
  refine .of_next h ?_
  split <;> exact (KeepsPort.refl s).same

/-- A transfer that is answered with a status alone, or not at all (R183). -/
theorem answeredUnless_keepsPort {c : Prop} [Decidable c] {tag : Byte} {status : Status} :
    KeepsPort s (if c then beginHappening s else respond tag status [] (beginHappening s)) := by
  split <;> exact (KeepsPort.refl s).same

theorem execAbortMigration_keepsPort {tag : Byte} {params : List Byte} (h : execAbortMigration tag params s = .next t) :
    KeepsPort s t := by
  refine .of_next h (judged_keepsPort fun u => respond_keepsPort ?_)
  split
  · exact .refl u
  · exact takeAbort_keepsPort (.refl u)

theorem execCheckpointNow_keepsPort {tag : Byte} {params : List Byte} (h : execCheckpointNow tag params s = .next t) :
    KeepsPort s t := by
  refine .of_next h (judged_keepsPort fun u => ?_)
  split <;> exact (KeepsPort.refl u).same

/-! ### Every command, and every step -/

/-- Every command keeps the Media Port. -/
theorem exec_keepsPort (c : Instr) (h : exec c s = .next t) : KeepsPort s t := by
  cases c with
  | resetAssert => exact .of_next h (happening_keepsPort fun _ => assertReset_keepsPort)
  | resetRelease => exact .of_next h (happening_keepsPort fun _ => releaseReset_keepsPort)
  | holdUpAssert => exact .of_next h (happening_keepsPort fun _ => assertHoldUp_keepsPort)
  | holdUpDeassert => exact .of_next h (happening_keepsPort fun _ => deassertHoldUp_keepsPort)
  | sweepBoundary => exact execSweepBoundary_keepsPort h
  | drainAgeReached => exact .of_next h (happening_keepsPort .refl)
  | stampAgeClamp => exact .of_next h (happening_keepsPort_of_same fun _ => by simp)
  | hostRead => exact .of_next h (happening_keepsPort fun u => hostReadArrives_keepsPort (.refl u))
  | hostWrite => exact .of_next h (happening_keepsPort fun u => hostWriteArrives_keepsPort (.refl u))
  | hostPersist => exact .of_next h (happening_keepsPort_of_same fun _ => by simp)
  | hostUnknownKind => exact .of_next h (happening_keepsPort_of_same fun _ => by simp)
  | waitQueueTake => exact .of_next h (performed_keepsPort fun _ _ => waitQueueTake?_keepsPort)
  | persistTake => exact .of_next h (performed_keepsPort fun _ _ => persistTake?_keepsPort)
  | persistDone => exact .of_next h (performed_keepsPort fun _ _ => persistDone?_keepsPort)
  | flushDone => exact .of_next h (performed_keepsPort fun _ _ => flushDone?_keepsPort)
  | drainIssue => exact .of_next h (performed_keepsPort fun _ _ => drainIssue?_keepsPort)
  | mediaGrant => exact .of_next h (happening_keepsPort fun u => grantAll_keepsPort (.refl u))
  | attemptTimeout => exact execAttemptTimeout_keepsPort h
  | staleCompletionDiscard => exact .of_next h beginHappening_keepsPort
  | hostReadReturn => exact execHostReadReturn_keepsPort h
  | fillReadComplete => exact execFillReadComplete_keepsPort h
  | drainWriteComplete => exact execDrainWriteComplete_keepsPort h
  | copyReadComplete => exact execCopyReadComplete_keepsPort h
  | copyWriteComplete => exact execCopyWriteComplete_keepsPort h
  | recordWriteComplete => exact execRecordWriteComplete_keepsPort h
  | checkpointLineComplete => exact execCheckpointLineComplete_keepsPort h
  | formatOperationComplete => exact execFormatOperationComplete_keepsPort h
  | recoveryReadComplete => exact execRecoveryReadComplete_keepsPort h
  | migrationTake => exact .of_next h (performed_keepsPort fun _ _ => migrationTake?_keepsPort)
  | quiesceEnd => exact .of_next h (performed_keepsPort fun _ _ => quiesceEnd?_keepsPort)
  | migrationSwitch => exact .of_next h (performed_keepsPort fun _ _ => migrationSwitch?_keepsPort)
  | lateCopyStart => exact .of_next h (performed_keepsPort fun _ _ => lateCopyStart?_keepsPort)
  | abortComplete => exact .of_next h (performed_keepsPort fun _ _ => abortComplete?_keepsPort)
  | recordWriteIssue => exact .of_next h (performed_keepsPort fun _ _ => recordIssue?_keepsPort)
  | creatorJoinQueue => exact .of_next h (performed_keepsPort fun _ _ => creatorJoin?_keepsPort)
  | checkpointImageFix => exact .of_next h (performed_keepsPort fun _ _ => imageFix?_keepsPort)
  | drainLockEmptyingEnd => exact .of_next h (performed_keepsPort fun _ _ => drainLockEmptyingEnd?_keepsPort)
  | closingEmptyingEnd => exact .of_next h (performed_keepsPort fun _ _ => closingEmptyingEnd?_keepsPort)
  | closingCheckpointStart => exact .of_next h (performed_keepsPort fun _ _ => closingCheckpointStart?_keepsPort)
  | responseRead => exact execResponseRead_keepsPort h
  | unknownCommand => exact .of_next h answeredUnless_keepsPort
  | getStatus => exact .of_next h (judgeBegun_keepsPort fun _ => answerOk_keepsPort)
  | getHealth => exact .of_next h (judgeBegun_keepsPort fun _ => answerOk_keepsPort)
  | getIdentity => exact .of_next h (judgeBegun_keepsPort fun _ => answerOk_keepsPort)
  | readMapEntry => exact .of_next h (judgeBegun_keepsPort fun _ => answerOk_keepsPort)
  | readFrameRecord => exact .of_next h (judgeBegun_keepsPort fun _ => answerOk_keepsPort)
  | readPoolEntry => exact .of_next h (judgeBegun_keepsPort fun _ => answerOk_keepsPort)
  | getSetting => exact .of_next h (judgeBegun_keepsPort fun _ => answerOk_keepsPort)
  | stageSetting => exact .of_next h (judgeBegun_keepsPort fun u => (KeepsPort.refl u).same)
  | commitSettings => exact .of_next h (judged_keepsPort fun u => (KeepsPort.refl u).same)
  | discardStaged => exact .of_next h (judgeBegun_keepsPort fun u => (KeepsPort.refl u).same)
  | setFenceVolatile => exact .of_next h (happening_keepsPort fun _ => setFence_keepsPort)
  | setFencePersistent => exact .of_next h (happening_keepsPort fun _ => setFence_keepsPort)
  | flush => exact .of_next h (judged_keepsPort fun u => (KeepsPort.refl u).same)
  | requestMigration => exact .of_next h (judged_keepsPort fun u => (KeepsPort.refl u).same)
  | abortMigration => exact execAbortMigration_keepsPort h
  | checkpointNow => exact execCheckpointNow_keepsPort h
  | prepareOff =>
    exact .of_next h (judged_keepsPort fun u => respond_keepsPort (enterClosing_keepsPort (.refl u)))
  | resume => exact .of_next h (judged_keepsPort fun u => respond_keepsPort (leaveSafe_keepsPort (.refl u)))
  | restart => exact .of_next h (judged_keepsPort fun _ => restartNow_keepsPort)
  | format => exact .of_next h (judged_keepsPort fun _ => formatNow_keepsPort)
  | readEvents => exact .of_next h (judgeBegun_keepsPort fun _ => answerOk_keepsPort)
  | clearEvents => exact .of_next h (judgeBegun_keepsPort fun u => (KeepsPort.refl u).same)
  | setEventEnable => exact .of_next h (judgeBegun_keepsPort fun u => (KeepsPort.refl u).same)
  | requestNotWellFormed => exact .of_next h answeredUnless_keepsPort

theorem step_keepsPort (h : step s = .next t) : KeepsPort s t := by
  unfold step at h
  split at h
  · exact (setPending_keepsPort (.refl s)).trans (exec_keepsPort _ h)
  · exact .of_next h tick_keepsPort

/-- Settles O5: every step keeps the operations in flight apart, and the Media Port of a stopped unit empty. -/
theorem stepKeepsTheMediaPortSound : Obligations.StepKeepsTheMediaPortSound :=
  ⟨fun _ _ hplaces hlines h => ((step_keepsPort h).apart ⟨hplaces, hlines⟩).lines,
    fun s t hs h => (stoppedSound_iff t).mpr ((step_keepsPort h).idle ((stoppedSound_iff s).mp hs))⟩

end Sys2Proof.Machine
end

section
/-! SUPPORT. Retire requests by Table 5.2, and the retire causes that make them (R12, R82, R83, R96, R111). -/

namespace Sys2Proof.Machine

/-! ### Retire requests (R83, Table 5.2) -/

section
variable {s : State} {l : Nat} (reason : Reason)

theorem isMoving_of_current {g : MigrationEngine} {m : Migration} (hm : g.current = some m) (hl : m.logical = l) :
    g.isMoving l = true := by
  simp [MigrationEngine.isMoving, hm, hl]

/-- Row 1 of Table 5.2. -/
theorem handleRetire_overdue (ho : s.overdueFrame l = true) : handleRetire l reason s = s := if_pos ho

section
variable (ho : s.overdueFrame l = false)
include ho

section
variable {m : Migration} (hm : s.mig.current = some m) (hl : m.logical = l)
include hm hl

/-- Row 2 of Table 5.2: the migration of the frame no longer takes retire requests (R96). -/
theorem handleRetire_moving (hphase : m.phase = .commitWait ∨ m.abortPending = true) : handleRetire l reason s = s := by
  have hclosed : m.upgradable = false := by
    rcases hphase with h | h <;> simp [Migration.upgradable, h]
  simp only [handleRetire, ho, isMoving_of_current hm hl, hm, hclosed, Option.map_some, Option.getD_some,
    Bool.false_eq_true, if_false, if_true]

/-- Row 3 of Table 5.2: a migration in QUIESCE or COPY takes the reason, unless its own is a retire reason (R96). -/
theorem handleRetire_upgrades (hphase : m.phase ≠ .commitWait) (habort : m.abortPending = false) :
    handleRetire l reason s = s.setMig { s.mig with
      current := some { m with reason := if m.reason.retire then m.reason else reason } } := by
  have hopen : m.upgradable = true := by simp [Migration.upgradable, hphase, habort]
  have hreason : (if m.reason.retire then m else { m with reason := reason }) =
      { m with reason := if m.reason.retire then m.reason else reason } := by
    split <;> rfl
  simp only [handleRetire, ho, isMoving_of_current hm hl, hm, hopen, Option.map_some, Option.getD_some,
    Bool.false_eq_true, if_false, if_true, upgradeCurrent, updMig, hreason]

end

variable (hmoving : s.mig.isMoving l = false)
include hmoving

/-- Row 4 of Table 5.2: the frame is queued for retirement already. -/
theorem handleRetire_queued (hretire : names l s.mig.retireQueue = true) : handleRetire l reason s = s := by
  simp only [handleRetire, ho, hmoving, hretire, Bool.false_eq_true, if_false, if_true]

/-- Row 5 of Table 5.2: a LEVEL or MANUAL request of the frame passes to the retire class. -/
theorem handleRetire_promotes (hretire : names l s.mig.retireQueue = false) (hback : names l s.mig.backQueue = true) :
    handleRetire l reason s = joinRetire ⟨l, reason⟩ (s.setMig { s.mig with
      backQueue := s.mig.backQueue.filter fun x => x.logical ≠ l }) := by
  simp only [handleRetire, ho, hmoving, hretire, hback, Bool.false_eq_true, if_false, if_true]

variable (hqueued : s.mig.isQueued l = false)
include hqueued

theorem handleRetire_unqueued : handleRetire l reason s =
    if s.mig.queued < 8 then joinRetire ⟨l, reason⟩ s
    else if s.mig.backQueue = [] then s else joinRetire ⟨l, reason⟩ (evictNewest s) := by
  simp only [MigrationEngine.isQueued, Bool.or_eq_false_iff] at hqueued
  obtain ⟨hretire, hback⟩ := hqueued
  have hroom : s.mig.room = decide (s.mig.queued < 8) := rfl
  simp only [handleRetire, ho, hmoving, hretire, hback, hroom, decide_eq_true_eq, List.isEmpty_iff, Bool.false_eq_true,
    if_false]

/-- Row 6 of Table 5.2: the queue has room. -/
theorem handleRetire_joins (hroom : s.mig.queued < 8) : handleRetire l reason s = joinRetire ⟨l, reason⟩ s := by
  rw [handleRetire_unqueued reason ho hmoving hqueued, if_pos hroom]

variable (hfull : 8 ≤ s.mig.queued)
include hfull

/-- Row 7 of Table 5.2: a full queue with a back-class request evicts its newest. -/
theorem handleRetire_evicts (hback : s.mig.backQueue ≠ []) :
    handleRetire l reason s = joinRetire ⟨l, reason⟩ (evictNewest s) := by
  rw [handleRetire_unqueued reason ho hmoving hqueued, if_neg (Nat.not_lt.mpr hfull), if_neg hback]

/-- Row 8 of Table 5.2: a queue full of retire requests refuses. -/
theorem handleRetire_refuses (hback : s.mig.backQueue = []) : handleRetire l reason s = s := by
  rw [handleRetire_unqueued reason ho hmoving hqueued, if_neg (Nat.not_lt.mpr hfull), if_pos hback]

end

/-- The newest back-class request leaves with result EVICTED, and MIGRATION_ABORTED for a MANUAL one (R83). -/
theorem evictNewest_eq {rest : List MigRequest} {last : MigRequest} (h : s.mig.backQueue = rest ++ [last]) :
    evictNewest s = { s with
      mig := { s.mig with
        backQueue := rest
        lastResult := some ⟨last.logical, last.reason, .evicted, s.time.tick⟩ }
      link := if last.reason = .manual then s.flagged .migrationAborted else s.link } := by
  simp only [evictNewest, h, List.getLast?_concat, List.dropLast_concat]
  split <;> rfl

/-! ### Retire causes (R12, R111) -/

section
variable {f : Nat} {r : FrameRecord} (hf : s.frame? f = some r)
include hf

theorem retireCause_notMapped (hrole : r.role ≠ .mapped) : retireCause f reason s = s := by
  simp only [retireCause, hf, hrole, decide_false, Bool.and_false, Bool.false_eq_true, if_false]

/-- A retire cause of a MAPPED frame in ONLINE and WRITE_PROTECTED: the mark, and then Table 5.2 for its owner. -/
theorem retireCause_running (hl : s.map.loaded = true) (hrole : r.role = .mapped) (howner : r.owner = some l)
    (hs : s.running = true) : retireCause f reason s =
      handleRetire l reason (updFrame f (fun x => { x with wanted := true }) s) := by
  have hs : (updFrame f (fun x => { x with wanted := true }) s).running = true := hs
  simp only [retireCause, hf, hl, hrole, howner, decide_true, Bool.and_self, if_true, retireRequest, hs]

end

end

/-- Settles O30: the mark, and then the rows of Table 5.2 in their order. -/
theorem retireCausesFollowTable52 : Obligations.RetireCausesFollowTable52 := by
  intro frame reason r owner s t hf
  refine ⟨retireCause_notMapped reason hf, fun hl hrole howner ht => ?_⟩
  have hstopped : s.running = false → retireCause frame reason s = t := fun hs =>
    (retireCause_stopping reason hs hl hf hrole).trans ht.symm
  have hhandled : s.running = true → retireCause frame reason s = handleRetire owner reason t := fun hs =>
    (retireCause_running reason hf hl hrole howner hs).trans (congrArg _ ht.symm)
  have hoverdue : t.overdueFrame owner = s.overdueFrame owner := by
    rw [ht]
    exact overdueFrame_updFrame (g := fun x => { x with wanted := true }) (fun _ => rfl) frame owner
  have hmig : t.mig = s.mig := by rw [ht]
  have htime : t.time = s.time := by rw [ht]
  have hlink : t.link = s.link := by rw [ht]
  have hflagged : t.flagged .migrationAborted = s.flagged .migrationAborted := by rw [State.flagged, hlink]; rfl
  rw [← hoverdue, ← hmig, ← htime, ← hflagged, ← hlink]
  refine ⟨hstopped, fun hs ho => (hhandled hs).trans (handleRetire_overdue reason ho), fun hs ho => ?_⟩
  rw [hhandled hs]
  exact ⟨fun m hm hl => handleRetire_moving reason ho hm hl, fun m hm hl => handleRetire_upgrades reason ho hm hl,
    handleRetire_queued reason ho, handleRetire_promotes reason ho, handleRetire_joins reason ho,
    fun rest last hmoving hqueued hfull hback => by
      rw [handleRetire_evicts reason ho hmoving hqueued hfull (by simp [hback]), evictNewest_eq hback]
      rfl,
    handleRetire_refuses reason ho⟩

end Sys2Proof.Machine
end

section
/-! SUPPORT. The link's migration commands, REQUEST_MIGRATION and ABORT_MIGRATION (R79, R85, R102, R103). -/

namespace Sys2Proof.Machine

/-! ### REQUEST_MIGRATION (R85) -/

section
variable (tag : Byte) {b0 b1 : Byte} {s : State} {n : Nat}

theorem logicalParam_eq (b0 b1 : Byte) : paramField [b0, b1] 0 2 = b0.toNat + 256 * b1.toNat := by
  simp [paramField, leValue]

theorem mayMigrate_iff (s : State) (n : Nat) :
    s.mayMigrate n = true ↔ n < s.map.entries.length ∧ s.overdueFrame n = false := by
  simp [State.mayMigrate, State.entry?]

section
variable (hn : n = b0.toNat + 256 * b1.toNat)
include hn

theorem exec_requestMigration : exec (.requestMigration tag [b0, b1]) s =
    .next (settle (judge tag [b0, b1] 2 State.running (fun t => t.mayMigrate n) (requestMigration tag n)
      (beginHappening s))) := by
  rw [hn, ← logicalParam_eq]
  rfl

/-- A frame that is none, or that is retire-overdue, is no argument of REQUEST_MIGRATION. -/
theorem execRequestMigration_badArg (hs : s.running = true)
    (h : s.map.entries.length ≤ n ∨ s.overdueFrame n = true) :
    exec (.requestMigration tag [b0, b1]) s = .next (settle (s.withResponse tag .badArg [])) := by
  have hargs : (beginHappening s).mayMigrate n = false := by
    have : ¬(n < s.map.entries.length ∧ s.overdueFrame n = false) := by
      rcases h with h | h <;> simp [h]
    exact Bool.eq_false_iff.mpr (mt (mayMigrate_iff s n).mp this)
  rw [exec_requestMigration tag hn, judge_badArg, respond_beginHappening]
  exacts [not_reset_of_running hs, rfl, hs, hargs]

theorem execRequestMigration_runs (hs : s.running = true) (hlt : n < s.map.entries.length)
    (ho : s.overdueFrame n = false) : exec (.requestMigration tag [b0, b1]) s =
      .next (settle (requestMigration tag n (beginHappening s))) := by
  rw [exec_requestMigration tag hn, judge_run]
  exacts [not_reset_of_running hs, rfl, hs, (mayMigrate_iff s n).mpr ⟨hlt, ho⟩]

end

theorem requestMigration_known (h : s.mig.isQueued n = true ∨ s.mig.isMoving n = true) :
    requestMigration tag n (beginHappening s) = s.withResponse tag .accepted [] := by
  have h : ((beginHappening s).mig.isQueued n || (beginHappening s).mig.isMoving n) = true := by simpa using h
  rw [requestMigration, if_pos h, respond_beginHappening]

/-- A frame neither queued nor moving joins the back class as MANUAL where the queue has room, and is BUSY otherwise. -/
theorem requestMigration_new (hqueued : s.mig.isQueued n = false) (hmoving : s.mig.isMoving n = false) :
    requestMigration tag n (beginHappening s) =
      if s.mig.queued < 8 then
        { s.withResponse tag .accepted [] with mig := { s.mig with backQueue := s.mig.backQueue ++ [⟨n, .manual⟩] } }
      else s.withResponse tag .busy [] := by
  have hnew : ((beginHappening s).mig.isQueued n || (beginHappening s).mig.isMoving n) = false := by
    simp [hqueued, hmoving]
  have hroom : (beginHappening s).mig.room = decide (s.mig.queued < 8) := rfl
  simp only [requestMigration, hnew, hroom, decide_eq_true_eq, respond_beginHappening, Bool.false_eq_true, if_false]
  rfl

end

/-! ### ABORT_MIGRATION (R102, R103) -/

section
variable (tag : Byte) {s : State} {m : Migration}

theorem exec_abortMigration : exec (.abortMigration tag []) s = .next (settle (judge tag [] 0 State.mayAbort always
    (fun t => respond tag .accepted [] (if t.abortPending then t else takeAbort t)) (beginHappening s))) := rfl

theorem execAbortMigration_badState (hr : s.unit.state ≠ .reset) (h : s.mayAbort = false) :
    exec (.abortMigration tag []) s = .next (settle (s.withResponse tag .badState [])) := by
  rw [exec_abortMigration, judge_badState, respond_beginHappening]
  exacts [hr, rfl, h]

theorem mayAbort_of_noneAbortable (h : ∀ m, s.mig.current = some m → m.phase = .commitWait) : s.mayAbort = false := by
  cases hm : s.mig.current with
  | none => simp [State.mayAbort, hm]
  | some m => simp [State.mayAbort, hm, Migration.abortable, h m hm]

theorem execAbortMigration_runs (hs : s.running = true) (hm : s.mig.current = some m) (hphase : m.phase ≠ .commitWait) :
    exec (.abortMigration tag []) s = .next (settle (respond tag .accepted []
      (if m.abortPending then beginHappening s else takeAbort (beginHappening s)))) := by
  have hmay : (beginHappening s).mayAbort = true := by
    have hs : (beginHappening s).running = true := hs
    simp [State.mayAbort, hs, hm, Migration.abortable, hphase]
  have hpending : (beginHappening s).abortPending = m.abortPending := by simp [State.abortPending, hm]
  rw [exec_abortMigration, judge_run, hpending]
  exacts [not_reset_of_running hs, rfl, hmay, rfl]

theorem classWaits_iff (c : MediaClass) (l : List MediaRequest) : classWaits c l = true ↔ ∃ r ∈ l, r.cls = c := by
  simp [classWaits]

section
variable (hcls : ∀ r ∈ s.media.waiting, r.cls = .copy ↔ r.requester = .engine)
include hcls

theorem copyWaits_withoutEngine :
    classWaits .copy (s.media.waiting.filter fun r => r.requester ≠ .engine) = false := by
  rw [Bool.eq_false_iff, Ne, classWaits_iff]
  rintro ⟨r, hr, hcopy⟩
  obtain ⟨hr, hother⟩ := List.mem_filter.mp hr
  exact of_decide_eq_true hother ((hcls r hr).mp hcopy)

theorem checkpointWaits_withoutEngine :
    classWaits .checkpoint (s.media.waiting.filter fun r => r.requester ≠ .engine) = true ↔
      ∃ r ∈ s.media.waiting, r.cls = .checkpoint := by
  rw [classWaits_iff]
  constructor
  · rintro ⟨r, hr, hc⟩
    exact ⟨r, List.mem_of_mem_filter hr, hc⟩
  · rintro ⟨r, hr, hc⟩
    have hother : r.requester ≠ .engine := fun he => by simp [(hcls r hr).mpr he] at hc
    exact ⟨r, List.mem_filter.mpr ⟨hr, decide_eq_true hother⟩, hc⟩

/-- Where the COPY class is the engine's alone, an abort leaves no copy request waiting, and the other requests as they
were (R79, R103). -/
theorem takeAbort_eq (hm : s.mig.current = some m) (ha : s.media.arriving = []) : takeAbort s = { s with
    mig := { s.mig with current := some { m with abortPending := true } }
    media := { s.media with
      waiting := s.media.waiting.filter fun r => r.requester ≠ .engine
      promoCheckpoint := if ∃ r ∈ s.media.waiting, r.cls = .checkpoint then s.media.promoCheckpoint else 0
      promoCopy := 0 } } := by
  have hleft : (fun r : MediaRequest => !decide (r.requester = .engine)) = fun r => decide (r.requester ≠ .engine) :=
    funext fun r => (decide_not (p := r.requester = .engine)).symm
  simp only [takeAbort, withdraw, updMig, hm, Option.map_some, State.setMig_media, ha, List.filter_nil, List.append_nil,
    hleft, copyWaits_withoutEngine hcls, checkpointWaits_withoutEngine hcls, Bool.false_eq_true, if_false]
  rw [← ha]
  rfl

end

end

/-- Settles O52: each clause is one outcome of the checks of R183, or of the command once it is executed. -/
theorem migrationCommandsQueueAndAbort : Obligations.MigrationCommandsQueueAndAbort := by
  refine ⟨fun tag b0 b1 s hr hon hwp => ?_, fun tag b0 b1 s n hn hs => ?_⟩
  · have hs : s.running = false := by simp [State.running, hon, hwp]
    refine ⟨?_, execAbortMigration_badState tag hr (by simp [State.mayAbort, hs])⟩
    rw [exec_requestMigration tag rfl, judge_badState, respond_beginHappening]
    exacts [hr, rfl, hs]
  · have hs := (running_iff s).mpr hs
    refine ⟨execRequestMigration_badArg tag hn hs, fun hlt ho => ⟨fun hknown => ?_, fun hqueued hmoving => ?_⟩,
      fun hnone => execAbortMigration_badState tag (not_reset_of_running hs) (mayAbort_of_noneAbortable hnone),
      fun m hm hphase => ?_⟩
    · rw [execRequestMigration_runs tag hn hs hlt ho, requestMigration_known tag hknown]
    · rw [execRequestMigration_runs tag hn hs hlt ho, requestMigration_new tag hqueued hmoving]
      exact ⟨fun hroom => by rw [if_pos hroom], fun hfull => by rw [if_neg (Nat.not_lt.mpr hfull)]⟩
    · rw [execAbortMigration_runs tag hs hm hphase]
      refine ⟨fun hpending => ?_, fun hpending ha hcls => ?_⟩
      · rw [if_pos hpending, respond_beginHappening]
      · rw [if_neg (by simp [hpending]), takeAbort_eq (s := beginHappening s) hcls hm ha]
        rfl

end Sys2Proof.Machine
end

section
/-! SUPPORT. The taking of a migration, and the engine's asking for a target (R14, R19, R48, R87 to R92). -/

namespace Sys2Proof.Machine

/-! ### The taking of a migration (R82, R87) -/

section
variable {s : State} {q : MigRequest} {rest : List MigRequest}

/-- The head of the queue is that of the retire class, and of the back class where that is empty (R82). -/
theorem takeHead_eq {g : MigrationEngine}
    (h : g.retireQueue = q :: rest ∨ (g.retireQueue = [] ∧ g.backQueue = q :: rest)) :
    g.takeHead = some (q, { g with
      retireQueue := g.retireQueue.tail
      backQueue := if g.retireQueue = [] then rest else g.backQueue }) := by
  rcases h with hretire | ⟨hretire, hback⟩
  · simp only [MigrationEngine.takeHead, hretire, reduceCtorEq, if_false, List.tail_cons]
  · simp only [MigrationEngine.takeHead, hretire, hback, if_true, List.tail_nil]

theorem migrationTake?_some {g : MigrationEngine} {e : MapEntry} (hs : s.running = true) (hidle : s.mig.current = none)
    (hhead : s.mig.takeHead = some (q, g)) (he : s.entry? q.logical = some e) :
    migrationTake? s = some (setMigrationMark q.logical true
      (s.setMig { g with current := some (newMigration q e.frame) })) := by
  simp only [migrationTake?, hs, hidle, hhead, he, Option.isNone_none, Bool.and_self, if_true, Option.map_some,
    Option.getD_some]

theorem exec_migrationTake {t : State} (h : migrationTake? (beginHappening s) = some t) :
    exec .migrationTake s = .next (settle t) :=
  congrArg (fun u => Host.Outcome.next (settle u)) (perform_of_some h)

end

/-! ### Copy requests (R92) -/

section
variable {s : State} {m : Migration}

theorem not_stopped_of_engineRuns (h : s.engineRuns = true) : s.unit.state ≠ .failed ∧ s.unit.state ≠ .reset := by
  constructor <;> intro hs <;> simp [State.engineRuns, State.running, hs] at h

theorem copyWriteRequest_eq {target : Nat} (h : m.target = some target) (i : Nat) (d : LineData) :
    copyWriteRequest m i d = ⟨.copy, .engine, .write (.data d), target * 64 + i⟩ := by
  rw [copyWriteRequest, h]
  rfl

/-- The copy of a line starts with the write of zeros where it is known poisoned, and with the read of the source
otherwise (R92). -/
theorem startCopy_eq {target : Nat} (hf : s.unit.state ≠ .failed) (hr : s.unit.state ≠ .reset)
    (hm : s.mig.current = some m) (ht : m.target = some target) (i : Nat) :
    startCopy i s = s.setMedia { s.media with
      arriving := s.media.arriving ++
        [if m.pendingPoison.getLsbD i then ⟨.copy, .engine, .write (.data zeroLine), target * 64 + i⟩
          else ⟨.copy, .engine, .read, m.source * 64 + i⟩] } := by
  rw [← copyWriteRequest_eq ht]
  simp only [startCopy, hm]
  exact request_eq hf hr _

/-! ### The end of QUIESCE, and the target (R14, R88, R89) -/

theorem exec_quiesceEnd (hs : s.engineRuns = true) (hm : s.mig.current = some m) (hphase : m.phase = .quiesce)
    (habort : m.abortPending = false) (hdrain : s.frameDraining m.logical = false) :
    exec .quiesceEnd s = .next (settle (askTarget m (beginHappening s))) := by
  have hend : quiesceEnd? (beginHappening s) = some (askTarget m (beginHappening s)) := by
    have hs : (beginHappening s).engineRuns = true := hs
    have hdrain : (beginHappening s).frameDraining m.logical = false := hdrain
    simp only [quiesceEnd?, beginHappening_frame, hm, hs, hphase, habort, hdrain, decide_true, Bool.not_false,
      Bool.and_self, if_true]
  exact congrArg (fun u => Host.Outcome.next (settle u)) (perform_of_some hend)

/-- The pool head becomes the target, and the copy of line 0 starts under the entry's poison mask (R14, R89, R92). -/
theorem askTarget_takes {e : MapEntry} {head : Nat} {rest : List Nat} (hf : s.unit.state ≠ .failed)
    (hr : s.unit.state ≠ .reset) (he : s.entry? m.logical = some e) (hpool : s.map.pool = head :: rest) :
    askTarget m s = { s with
      map := { s.map with
        pool := rest
        frames := s.map.frames.modify head fun x => { x with role := .target, owner := some m.logical } }
      mig := { s.mig with
        current := some { m with phase := .copy, target := some head, copyIndex := 0, pendingPoison := e.poison } }
      media := { s.media with
        arriving := s.media.arriving ++
          [if e.poison.getLsbD 0 then ⟨.copy, .engine, .write (.data zeroLine), head * 64⟩
            else ⟨.copy, .engine, .read, m.source * 64⟩] } } := by
  simp only [askTarget, hpool, he, Option.map_some, Option.getD_some]
  rw [startCopy_eq (target := head)
    (m := { m with phase := .copy, target := some head, copyIndex := 0, pendingPoison := e.poison })]
  exacts [rfl, hf, hr, rfl, rfl]

/-! ### The ends for want of a spare (R90, R91) -/

theorem askTarget_empty (hpool : s.map.pool = []) :
    askTarget m s = if m.reason.retire then spareExhausted m s else noSpare m s := by
  simp only [askTarget, hpool]

end

/-! ### The write-protect latch (R19, R48, R142) -/

section
variable {s : State}

/-- With no READ held behind them, the waiting writes are refused in order of arrival, and that is all (R48). -/
theorem refuseWaiting_eq (htags : (s.host.entries.map (·.tag)).Nodup)
    (hwrites : ∀ x ∈ s.host.entries, x.standing = .waiting → x.kind = .write) : refuseWaiting s = { s with
      out := { s.out with
        host := s.out.host ++
          (s.host.entries.filter fun x => x.standing = .waiting).map fun x => ⟨x.tag, .refused, zeroLine⟩ }
      host := { s.host with entries := s.host.entries.filter fun x => x.standing ≠ .waiting } } := by
  have hwaiting : s.host.entries.filter TagEntry.waitingWrite =
      s.host.entries.filter fun x => x.standing = .waiting := by
    refine List.filter_congr fun x hx => Bool.eq_iff_iff.mpr ?_
    have := hwrites x hx
    simp_all [TagEntry.waitingWrite, TagEntry.waits]
  have hanswers := foldl_answer_eq (code := .refused) (.inr rfl)
    ((s.host.entries.filter fun x => x.standing = .waiting).map (·.tag)) s
  rw [List.foldl_map, filter_tag_notMem htags, List.map_map] at hanswers
  have hnone : (s.host.entries.filter fun x => ¬x.standing = .waiting).filter TagEntry.waits = [] := by
    simp [TagEntry.waits]
  rw [refuseWaiting, hwaiting, hanswers]
  dsimp only
  rw [hnone]
  rfl

theorem refuseWaiting_of_none (h : ∀ x ∈ s.host.entries, x.standing ≠ .waiting) : refuseWaiting s = s := by
  have hwrites : s.host.entries.filter TagEntry.waitingWrite = [] := by
    rw [List.filter_eq_nil_iff]
    intro x hx
    simp [TagEntry.waitingWrite, TagEntry.waits, h x hx]
  have hwaits : s.host.entries.filter TagEntry.waits = [] := by
    rw [List.filter_eq_nil_iff]
    intro x hx
    simp [TagEntry.waits, h x hx]
  rw [refuseWaiting, hwrites, List.foldl_nil, hwaits, List.foldl_nil]

theorem setLatch_notOnline (h : s.unit.state ≠ .online) : setLatch s = s.setMap { s.map with latch := true } := if_neg h

theorem setLatch_online (h : s.unit.state = .online) :
    setLatch s = refuseWaiting (enterState .writeProtected (s.setMap { s.map with latch := true })) := if_pos h

/-- The tables a retire migration leaves when it finds the pool empty, before the latch is set (R90). -/
def overdueMarked (m : Migration) (s : State) : State :=
  setFailMark m.logical false (updFrame m.source (fun r => { r with overdue := true }) s)

/-- What the end with result OVERDUE adds to the latch (R90). -/
theorem spareExhausted_eq {m : Migration} {v : State} (hlatch : setLatch (overdueMarked m s) = v) :
    spareExhausted m s = { v with
      map := { v.map with
        entries := v.map.entries.modify m.logical fun x => { x with migrationMark := false } }
      mig := { v.mig with current := none, lastResult := some ⟨m.logical, m.reason, .overdue, v.time.tick⟩ }
      link := v.flagged .sparesExhausted } := by
  rw [overdueMarked] at hlatch
  rw [spareExhausted]
  dsimp only
  rw [hlatch]
  rfl

end

/-- Settles O35: the head of the queue taken; then the pool head as target, or the two ends for want of a spare. -/
theorem migrationIsTakenAndAsksForATarget : Obligations.MigrationIsTakenAndAsksForATarget := by
  refine ⟨fun q e s rest hs hidle he hqueue => ?_, fun m e s hs hm hphase habort hdrain he => ?_⟩
  · exact exec_migrationTake (migrationTake?_some (s := beginHappening s) ((running_iff s).mpr hs) hidle
      (takeHead_eq hqueue) he)
  · obtain ⟨hf, hr⟩ := not_stopped_of_engineRuns hs
    rw [exec_quiesceEnd hs hm hphase habort hdrain]
    refine ⟨fun head rest hpool => ?_, fun hpool hreason => ?_, fun hpool hreason u hu => ?_⟩
    · rw [askTarget_takes (s := beginHappening s) hf hr he hpool]
      rfl
    · rw [askTarget_empty (s := beginHappening s) hpool, if_neg (by simp [hreason])]
      rfl
    · have hmarks : (s.map.entries.modify m.logical fun x => { x with failMark := false }).modify m.logical
          (fun x => { x with migrationMark := false }) =
            s.map.entries.modify m.logical fun x => { x with migrationMark := false, failMark := false } :=
        List.modify_modify_eq _ _ _ _
      rw [askTarget_empty (s := beginHappening s) hpool, if_pos hreason, hu, ← hmarks]
      refine ⟨fun hoff => ?_, fun hon hnone => ?_, fun hon htags hwrites => ?_⟩
      · rw [spareExhausted_eq (setLatch_notOnline (s := overdueMarked m (beginHappening s)) hoff)]
        rfl
      · rw [spareExhausted_eq ((setLatch_online (s := overdueMarked m (beginHappening s)) hon).trans
          (refuseWaiting_of_none hnone))]
        rfl
      · rw [spareExhausted_eq ((setLatch_online (s := overdueMarked m (beginHappening s)) hon).trans
          (refuseWaiting_eq htags hwrites))]
        rfl

end Sys2Proof.Machine
end

section
/-! SUPPORT. The outcomes of the engine's reads and writes in COPY (R72 to R74, R92 to R94, R98). -/

namespace Sys2Proof.Machine

/-! ### Whose operation ends (R63, R64, R72 to R74) -/

section
variable {s : State} {op : InFlight} {m : Migration}

/-- The completion of an engine's read: the outcome is counted, and reaches the engine. -/
theorem exec_copyReadComplete (stored : Stored) (hop : s.Reading op .engine) :
    exec (.copyReadComplete op.id stored) s = .next (settle
      (engineRead (decodeStored stored) (readOutcome op (decodeStored stored) (beginHappening s)))) := by
  have hread : (beginHappening s).readInFlight? op.id (· = .engine) = some op := by
    have hfound : (beginHappening s).inFlight? op.id = some op := hop.found
    simp only [State.readInFlight?, hfound, Option.filter_some, hop.kind, hop.requester, decide_true, Bool.and_self,
      if_true]
  change Host.Outcome.next (settle (match (beginHappening s).readInFlight? op.id (· = .engine) with
    | some op => _
    | none => beginHappening s)) = _
  rw [hread]

/-- The completion of an engine's write: the outcome is counted, and reaches the engine. -/
theorem exec_copyWriteComplete (report : WriteReport) (hop : s.Writing op .engine) :
    exec (.copyWriteComplete op.id report) s =
      .next (settle (engineWrite report (writeOutcome op report (beginHappening s)))) := by
  have hwrite : (beginHappening s).writeInFlight? op.id (· = .engine) = some op := by
    have hfound : (beginHappening s).inFlight? op.id = some op := hop.found
    simp only [State.writeInFlight?, hfound, Option.filter_some, hop.kind, hop.requester, ne_eq, not_false_eq_true,
      decide_true, Bool.and_self, if_true]
  change Host.Outcome.next (settle (match (beginHappening s).writeInFlight? op.id (· = .engine) with
    | some op => _
    | none => beginHappening s)) = _
  rw [hwrite]

theorem engineRead_copy (o : ReadOutcome LineData) (hm : s.mig.current = some m) (hphase : m.phase = .copy) :
    engineRead o s = copyReadOutcome m o s := by
  simp only [engineRead, hm, hphase]

theorem engineWrite_copy (report : WriteReport) (hm : s.mig.current = some m) (hphase : m.phase = .copy) :
    engineWrite report s = copyWriteOutcome m report s := by
  simp only [engineWrite, hm, hphase]

theorem exec_copyReadComplete_copy {o : ReadOutcome LineData} {stored : Stored} {t u : State}
    (hop : s.Reading op .engine) (ho : decodeStored stored = o) (hu : readOutcome op o (beginHappening s) = u)
    (hm : u.mig.current = some m) (hphase : m.phase = .copy) (ht : copyReadOutcome m o u = t) :
    exec (.copyReadComplete op.id stored) s = .next (settle t) := by
  rw [exec_copyReadComplete stored hop, ho, hu, engineRead_copy _ hm hphase, ht]

theorem exec_copyWriteComplete_copy {report : WriteReport} {t : State} (hop : s.Writing op .engine)
    (hm : s.mig.current = some m) (hphase : m.phase = .copy)
    (ht : copyWriteOutcome m report (writeOutcome op report (beginHappening s)) = t) :
    exec (.copyWriteComplete op.id report) s = .next (settle t) := by
  rw [exec_copyWriteComplete report hop, engineWrite_copy _ (by simpa using hm) hphase, ht]

end

/-! ### The reads of COPY (R93) -/

section
variable {s : State} {m : Migration} {target : Nat} {o : ReadOutcome LineData} {data : LineData}
  (hf : s.unit.state ≠ .failed) (hr : s.unit.state ≠ .reset) (habort : m.abortPending = false)
  (ht : m.target = some target)
include hf hr habort ht

/-- A line that was read is written to the target. -/
theorem copyReadOutcome_delivered (ho : o.delivered = some data) :
    copyReadOutcome m o s = { s with
      media := { s.media with
        arriving := s.media.arriving ++ [⟨.copy, .engine, .write (.data data), target * 64 + m.copyIndex⟩] } } := by
  simp only [copyReadOutcome, habort, ho, copyWriteRequest_eq ht, Bool.false_eq_true, if_false]
  exact request_eq hf hr _

/-- For an UNCORRECTABLE line zeros are written and its pending flag is set; where the unit is stopping, the source is
marked retire-wanted, and no request is made. -/
theorem copyReadOutcome_uncorrectable {r : FrameRecord} (hs : s.running = false) (hl : s.map.loaded = true)
    (hframe : s.frame? m.source = some r) (hrole : r.role = .mapped) (hm : s.mig.current = some m) :
    copyReadOutcome m .uncorrectable s = { s with
      map := { s.map with frames := s.map.frames.modify m.source fun x => { x with wanted := true } }
      mig := { s.mig with current := some { m with pendingPoison := m.pendingPoison ||| 1#64 <<< m.copyIndex } }
      media := { s.media with
        arriving := s.media.arriving ++ [⟨.copy, .engine, .write (.data zeroLine), target * 64 + m.copyIndex⟩] } } := by
  simp only [copyReadOutcome, habort, ReadOutcome.delivered, copyWriteRequest_eq ht, Bool.false_eq_true, if_false,
    updMig, hm, Option.map_some]
  rw [request_eq, retireCause_stopping]
  exacts [rfl, hs, hl, hframe, hrole, hf, hr]

end

/-! ### The writes of COPY (R92, R94, R98) -/

section
variable {s : State} {m : Migration} {target : Nat} (habort : m.abortPending = false) (ht : m.target = some target)
include habort ht

/-- The write of a line before the last starts the next. -/
theorem copyWriteOutcome_next (hf : s.unit.state ≠ .failed) (hr : s.unit.state ≠ .reset) (hm : s.mig.current = some m)
    (hi : m.copyIndex < 63) : copyWriteOutcome m .stored s = { s with
      mig := { s.mig with current := some { m with copyIndex := m.copyIndex + 1 } }
      media := { s.media with
        arriving := s.media.arriving ++
          [if m.pendingPoison.getLsbD (m.copyIndex + 1) then
              ⟨.copy, .engine, .write (.data zeroLine), target * 64 + (m.copyIndex + 1)⟩
            else ⟨.copy, .engine, .read, m.source * 64 + (m.copyIndex + 1)⟩] } } := by
  have hdone : copyWriteOutcome m .stored s = copyLineDone m s := if_neg (Bool.eq_false_iff.mp habort)
  rw [hdone, copyLineDone, if_pos hi, updMig, hm, Option.map_some,
    startCopy_eq (m := { m with copyIndex := m.copyIndex + 1 }) (target := target)]
  exacts [rfl, hf, hr, rfl, ht]

/-- The write of line 63 ends the copy: the fate is fixed, and MOVE_COMMIT is handed over (R98). -/
theorem copyWriteOutcome_last {r : FrameRecord} {fate : Fate} (hm : s.mig.current = some m) (hi : m.copyIndex = 63)
    (hframe : s.frame? m.source = some r) (hw : s.jrn.waiters = []) (hroom : s.jrn.staging.length < 16)
    (hfate : fate = if m.reason.retire = true ∨ s.retireWear ≤ r.wear ∨ s.time.active.retireErrors ≤ r.corrected then
      Fate.retired else Fate.spare) : copyWriteOutcome m .stored s = { s with
      mig := { s.mig with current := some { m with phase := .commitWait, fate := fate } }
      jrn := { s.jrn with
        staging := s.jrn.staging ++
          [⟨.engine, .moveCommit m.logical target m.source fate m.pendingPoison, none⟩] } } := by
  have hfate : s.fateOf m = fate := by
    simp only [hfate, State.fateOf, State.overThreshold, hframe, Bool.or_eq_true, decide_eq_true_eq]
  simp only [copyWriteOutcome, habort, copyLineDone, hi, Nat.lt_irrefl, endCopy, hfate, ht, Option.getD_some, updMig,
    hm, Option.map_some, Bool.false_eq_true, if_false]
  rw [handOver_joins]
  exacts [rfl, hw, hroom]

/-- A target that fails to program is RETIRED, and the copy begins again to the next pool head (R94). -/
theorem copyWriteOutcome_failed {e : MapEntry} {head : Nat} {rest : List Nat} (hf : s.unit.state ≠ .failed)
    (hr : s.unit.state ≠ .reset) (he : s.entry? m.logical = some e) (hpool : s.map.pool = head :: rest)
    (hw : s.jrn.waiters = []) (hroom : s.jrn.staging.length < 16) : copyWriteOutcome m .programFail s = { s with
      map := { s.map with
        pool := rest
        frames := (s.map.frames.modify target fun x => { x with role := .retired, owner := none }).modify head fun x =>
          { x with role := .target, owner := some m.logical } }
      mig := { s.mig with
        current := some { m with phase := .copy, target := some head, copyIndex := 0, pendingPoison := e.poison } }
      media := { s.media with
        arriving := s.media.arriving ++
          [if e.poison.getLsbD 0 then ⟨.copy, .engine, .write (.data zeroLine), head * 64⟩
            else ⟨.copy, .engine, .read, m.source * 64⟩] }
      jrn := { s.jrn with staging := s.jrn.staging ++ [⟨.engine, .spareRetire target, none⟩] } } := by
  simp only [copyWriteOutcome, habort, failTarget, ht, updMig, Bool.false_eq_true, if_false]
  rw [handOver_joins, askTarget_takes]
  exacts [rfl, hf, hr, he, hpool, hw, hroom]

end

/-- Settles O36: the outcome counted, and what the engine makes of it. -/
theorem copyOutcomesCarryTheMigration : Obligations.CopyOutcomesCarryTheMigration := by
  refine ⟨fun m target op stored s hop hm hphase habort ht hr hf => ⟨fun data h0 => ?_,
      fun data r h1 h4 hframe hrole hless hmax => ?_, fun r hfar hs hl hframe hrole => ?_⟩,
    fun m target op s hop hm hphase habort ht hr hf => ⟨fun hi => ?_, fun r fate hi hframe hother hw hroom hfate => ?_,
      fun e head rest he hpool hw hroom => ?_⟩⟩
  · refine exec_copyReadComplete_copy hop (decodeStored_clean h0) (readOutcome_clean _ _ _) hm hphase ?_
    exact copyReadOutcome_delivered hf hr habort ht rfl
  · refine exec_copyReadComplete_copy hop (decodeStored_corrected h1 h4)
      (readOutcome_corrected (s := beginHappening s) hframe hrole hless hmax) hm hphase ?_
    exact copyReadOutcome_delivered hf hr habort ht rfl
  · refine exec_copyReadComplete_copy hop (decodeStored_uncorrectable hfar) (readOutcome_uncorrectable _ _) hm hphase ?_
    exact copyReadOutcome_uncorrectable hf hr habort ht (not_running_of_stopping (s := s) (.inr hs)) hl hframe hrole hm
  · refine exec_copyWriteComplete_copy hop hm hphase ?_
    rw [writeOutcome_stored]
    exact copyWriteOutcome_next habort ht hf hr hm hi
  · have hworn : (s.worn (op.request.physical / 64)).frames[m.source]? = some r :=
      (List.getElem?_modify_ne _ _ hother.symm).trans hframe
    refine exec_copyWriteComplete_copy hop hm hphase ?_
    rw [writeOutcome_stored]
    exact copyWriteOutcome_last habort ht hm hi hworn hw hroom hfate
  · refine exec_copyWriteComplete_copy hop hm hphase ?_
    rw [writeOutcome_programFail, hphase]
    exact copyWriteOutcome_failed habort ht hf hr he hpool hw hroom

end Sys2Proof.Machine
end

section
/-! SUPPORT. The switch of a migration to its new frame (R7, R15, R99, R100). -/

namespace Sys2Proof.Machine

section
variable {s : State} {m : Migration} {target : Nat}

theorem exec_migrationSwitch (hs : s.working = true) (hm : s.mig.current = some m) (hphase : m.phase = .commitWait)
    (hdurable : m.commitDurable = true) (hlate : m.lateMask = 0#64) (hdrain : s.frameDraining m.logical = false) :
    exec .migrationSwitch s = .next (settle (switchMigration m (beginHappening s))) := by
  have hswitch : migrationSwitch? (beginHappening s) = some (switchMigration m (beginHappening s)) := by
    have hs : (beginHappening s).working = true := hs
    have hdrain : (beginHappening s).frameDraining m.logical = false := hdrain
    simp only [migrationSwitch?, beginHappening_frame, hm, hs, hphase, hdurable, hlate, hdrain, decide_true,
      Bool.not_false, Bool.and_self, if_true]
  exact congrArg (fun u => Host.Outcome.next (settle u)) (perform_of_some hswitch)

/-! ### The tables (R7, R15) -/

theorem releaseSource_retired (h : m.fate = .retired) : releaseSource m s =
    updFrame m.source (fun x => { x with role := .retired, owner := none, wanted := false }) s := by
  have hother : ¬m.fate = .spare := by simp [h]
  simp only [releaseSource, if_neg hother]
  exact congrArg (fun l => s.setMap { s.map with frames := l }) (List.modify_modify_eq _ _ _ _)

theorem releaseSource_spare (h : m.fate = .spare) {frames : List FrameRecord}
    (hframes : frames = s.map.frames.modify m.source fun x =>
      { x with role := .spare, owner := none, wanted := false }) :
    releaseSource m s = s.setMap { s.map with frames := frames, pool := insertPool frames m.source s.map.pool } := by
  have hmarks : (s.map.frames.modify m.source fun x => { x with wanted := false }).modify m.source
      (fun x => { x with role := .spare, owner := none }) = frames :=
    (List.modify_modify_eq _ _ _ _).trans hframes.symm
  simp only [releaseSource, if_pos h, joinPool, updFrame, State.setMap_map, hmarks]
  rfl

section
variable (ht : m.target = some target) {role : Role} {frames : List FrameRecord}
  (hframes : frames = (s.map.frames.modify target fun x => { x with role := .mapped }).modify m.source fun x =>
    { x with role := role, owner := none, wanted := false })
include ht hframes

/-- The map change of a switch whose source is RETIRED. -/
theorem switchTables_retired (h : m.fate = .retired) (hrole : role = .retired) :
    switchTables m s = s.setMap { s.map with
      entries := s.map.entries.modify m.logical fun _ => ⟨target, m.pendingPoison, false, false⟩
      frames := frames } := by
  rw [switchTables, ht, hframes, hrole]
  exact releaseSource_retired h

/-- The map change of a switch whose source joins the pool. -/
theorem switchTables_spare (h : m.fate = .spare) (hrole : role = .spare) :
    switchTables m s = s.setMap { s.map with
      entries := s.map.entries.modify m.logical fun _ => ⟨target, m.pendingPoison, false, false⟩
      frames := frames
      pool := insertPool frames m.source s.map.pool } := by
  rw [switchTables, ht]
  exact releaseSource_spare h (hrole ▸ hframes)

end

/-! ### The new frame (R100) -/

theorem checkNewFrame_below {f : Nat} {r : FrameRecord} (hf : s.frame? f = some r) (hwear : r.wear < s.retireWear)
    (herrors : r.corrected < s.time.active.retireErrors) : checkNewFrame f s = s := by
  simp only [checkNewFrame, hf, Nat.not_le.mpr hwear, Nat.not_le.mpr herrors, if_false]

/-- What the switch adds to the tables, where the new frame stands under both thresholds (R99, R100). -/
theorem switchMigration_below {v : State} {r : FrameRecord} (ht : m.target = some target) (hv : switchTables m s = v)
    (hf : v.frame? target = some r) (hwear : r.wear < v.retireWear)
    (herrors : r.corrected < v.time.active.retireErrors) :
    switchMigration m s = { v with
      mig := { v.mig with current := none, lastResult := some ⟨m.logical, m.reason, .committed, v.time.tick⟩ }
      health := committedCount m.reason v.health
      link := v.flagged .migrationDone } := by
  rw [switchMigration, hv, ht]
  exact checkNewFrame_below (r := r) hf hwear herrors

end

/-- Settles O37: the tables by the fate of the source, and what the switch adds to them. -/
theorem switchMovesTheFrame : Obligations.SwitchMovesTheFrame := by
  intro m target r s hs hm hphase hdurable hlate hdrain ht hother hf hwear herrors u role hu
  obtain ⟨frames, hframes⟩ : ∃ l, l = (s.map.frames.modify target fun x => { x with role := .mapped }).modify m.source
    fun x => { x with role := role, owner := none, wanted := false } := ⟨_, rfl⟩
  have hframe : frames[target]? = some { r with role := .mapped } := by
    rw [hframes, List.getElem?_modify_ne _ _ hother, List.getElem?_modify_eq]
    exact congrArg (Option.map _) hf
  rw [← hframes] at hu
  rw [exec_migrationSwitch hs hm hphase hdurable hlate hdrain]
  refine ⟨fun hfate hrole => ?_, fun hfate hrole => ?_⟩
  · have htables := switchTables_retired (s := beginHappening s) ht hframes hfate hrole
    rw [switchMigration_below ht htables hframe hwear herrors, hu]
    rfl
  · have htables := switchTables_spare (s := beginHappening s) ht hframes hfate hrole
    rw [switchMigration_below ht htables hframe hwear herrors, hu]
    rfl

end Sys2Proof.Machine
end

section
/-! SUPPORT. Late copies: their start, and the outcomes of their reads and writes (R93, R101, log entry 13). -/

namespace Sys2Proof.Machine

/-! ### The start of a late copy -/

section
variable {s : State} {m : Migration} {target i : Nat}

theorem lowestFlag_eq {f : Flags64} (hi : i < 64) (hset : f.getLsbD i = true)
    (hlow : ∀ j, j < i → f.getLsbD j = false) : lowestFlag f = some i := by
  rw [lowestFlag, List.find?_range_eq_some]
  exact ⟨hset, List.mem_range.mpr hi, fun j hj => by simp [hlow j hj]⟩

theorem nextLate_eq (hidle : m.lateCopy = none) (hi : i < 64) (hlate : m.lateMask.getLsbD i = true)
    (hopen : m.lateSettled.getLsbD i = false)
    (hlow : ∀ j, j < i → m.lateMask.getLsbD j = true → m.lateSettled.getLsbD j = true) : m.nextLate = some i := by
  have hflag : ∀ j, j < 64 → (m.lateMask &&& ~~~m.lateSettled).getLsbD j =
      (m.lateMask.getLsbD j && !m.lateSettled.getLsbD j) := fun j hj => by simp [hj]
  rw [Migration.nextLate, if_pos (by simp [hidle])]
  refine lowestFlag_eq hi (by rw [hflag i hi, hlate, hopen]; rfl) fun j hj => ?_
  rw [hflag j (hj.trans hi)]
  cases hm : m.lateMask.getLsbD j with
  | false => rfl
  | true => rw [hlow j hj hm]; rfl

theorem exec_lateCopyStart (hs : s.working = true) (hm : s.mig.current = some m) (hphase : m.phase = .commitWait)
    (hdrain : s.frameDraining m.logical = false) (hnext : m.nextLate = some i) :
    exec .lateCopyStart s = .next (settle (startCopy i ((beginHappening s).setMig { s.mig with
      current := some { m with lateCopy := some ⟨i, false⟩ } }))) := by
  have hstart : lateCopyStart? (beginHappening s) = some (startCopy i ((beginHappening s).setMig { s.mig with
      current := some { m with lateCopy := some ⟨i, false⟩ } })) := by
    have hs : (beginHappening s).working = true := hs
    have hdrain : (beginHappening s).frameDraining m.logical = false := hdrain
    simp only [lateCopyStart?, beginHappening_frame, hm, hs, hphase, hdrain, hnext, decide_true, Bool.not_false,
      Bool.and_self, if_true, updMig, Option.map_some]
  exact congrArg (fun u => Host.Outcome.next (settle u)) (perform_of_some hstart)

end

/-! ### Whose outcome it is -/

section
variable {s : State} {m : Migration} {c : LateCopy} {op : InFlight}

theorem exec_copyReadComplete_late {o : ReadOutcome LineData} {stored : Stored} {t u : State}
    (hop : s.Reading op .engine) (ho : decodeStored stored = o) (hu : readOutcome op o (beginHappening s) = u)
    (hm : u.mig.current = some m) (hphase : m.phase = .commitWait) (hc : m.lateCopy = some c)
    (ht : lateReadOutcome m c o u = t) : exec (.copyReadComplete op.id stored) s = .next (settle t) := by
  have hread : engineRead o u = lateReadOutcome m c o u := by simp only [engineRead, hm, hphase, hc]
  rw [exec_copyReadComplete stored hop, ho, hu, hread, ht]

section
variable {t : State} (hop : s.Writing op .engine) (hm : s.mig.current = some m) (hphase : m.phase = .commitWait)
  (hc : m.lateCopy = some c)
include hop hm hphase hc

theorem exec_copyWriteComplete_lateStored (ht : lateWriteDone c (writeOutcome op .stored (beginHappening s)) = t) :
    exec (.copyWriteComplete op.id .stored) s = .next (settle t) := by
  have hm : (writeOutcome op .stored (beginHappening s)).mig.current = some m := by simpa using hm
  rw [exec_copyWriteComplete .stored hop]
  simp only [engineWrite, hm, hphase, hc, ht]

theorem exec_copyWriteComplete_lateFails
    (ht : lateWriteFail m c (writeOutcome op .programFail (beginHappening s)) = t) :
    exec (.copyWriteComplete op.id .programFail) s = .next (settle t) := by
  have hm : (writeOutcome op .programFail (beginHappening s)).mig.current = some m := by simpa using hm
  rw [exec_copyWriteComplete .programFail hop]
  simp only [engineWrite, hm, hphase, hc, ht]

end

end

/-! ### The read of a late copy (R93, R101) -/

section
variable {s : State} {m : Migration} {c : LateCopy} {target : Nat} {o : ReadOutcome LineData} {data : LineData}

/-- With room in the staging queue, POISON_SET of a late line joins it, and is awaited (R101, R121). -/
theorem lateRecord_joins (hm : s.mig.current = some m) (hw : s.jrn.waiters = []) (hroom : s.jrn.staging.length < 16)
    (l : Migration) (i : Nat) : lateRecord l i s = { s with
      mig := { s.mig with current := some { m with lateAwaited := m.lateAwaited ++ [i] } }
      jrn := { s.jrn with staging := s.jrn.staging ++ [⟨.lateCopy i, .poisonSet (l.logical * 64 + i), none⟩] } } := by
  simp only [lateRecord, updMig, hm, Option.map_some]
  rw [handOver_joins]
  exacts [rfl, hw, hroom]

variable (hf : s.unit.state ≠ .failed) (hr : s.unit.state ≠ .reset) (ht : m.target = some target)
include hf hr ht

theorem lateReadOutcome_delivered (ho : o.delivered = some data) : lateReadOutcome m c o s = { s with
    media := { s.media with
      arriving := s.media.arriving ++ [⟨.copy, .engine, .write (.data data), target * 64 + c.line⟩] } } := by
  simp only [lateReadOutcome, ho, copyWriteRequest_eq ht]
  exact request_eq hf hr _

/-- For an UNCORRECTABLE late line zeros are written, its pending flag is set, POISON_SET is handed over, and the source
is marked retire-wanted. -/
theorem lateReadOutcome_uncorrectable {r : FrameRecord} (hs : s.running = false) (hl : s.map.loaded = true)
    (hframe : s.frame? m.source = some r) (hrole : r.role = .mapped) (hm : s.mig.current = some m)
    (hw : s.jrn.waiters = []) (hroom : s.jrn.staging.length < 16) : lateReadOutcome m c .uncorrectable s = { s with
      map := { s.map with frames := s.map.frames.modify m.source fun x => { x with wanted := true } }
      mig := { s.mig with
        current := some { m with
          pendingPoison := m.pendingPoison ||| 1#64 <<< c.line, lateAwaited := m.lateAwaited ++ [c.line] } }
      media := { s.media with
        arriving := s.media.arriving ++ [⟨.copy, .engine, .write (.data zeroLine), target * 64 + c.line⟩] }
      jrn := { s.jrn with
        staging := s.jrn.staging ++ [⟨.lateCopy c.line, .poisonSet (m.logical * 64 + c.line), none⟩] } } := by
  simp only [lateReadOutcome, ReadOutcome.delivered, copyWriteRequest_eq ht, updMig, hm, Option.map_some]
  rw [request_eq, lateRecord_joins (m := { m with pendingPoison := putFlag m.pendingPoison c.line true }),
    retireCause_stopping]
  exacts [rfl, hs, hl, hframe, hrole, rfl, hw, hroom, hf, hr]

end

/-! ### The write of a late copy (R101) -/

section
variable {s : State} {m : Migration} {c : LateCopy}

theorem lateWriteDone_eq (hm : s.mig.current = some m) :
    lateWriteDone c s = { s with mig := { s.mig with current := some (m.lateDone c) } } := by
  simp only [lateWriteDone, updMig, hm, Option.map_some]
  rfl

theorem lateDone_redrained (h : c.redrained = true) : m.lateDone c = { m with lateCopy := none } := if_pos h

theorem lateDone_awaited (h : c.redrained = false) (ha : c.line ∈ m.lateAwaited) :
    m.lateDone c = { m with lateCopy := none, lateSettled := m.lateSettled ||| 1#64 <<< c.line } := by
  simp only [Migration.lateDone, h, ha, Bool.false_eq_true, if_false, if_true]
  rfl

theorem lateDone_clears (h : c.redrained = false) (ha : c.line ∉ m.lateAwaited) : m.lateDone c = { m with
    lateCopy := none
    lateMask := m.lateMask &&& ~~~(1#64 <<< c.line)
    lateSettled := m.lateSettled &&& ~~~(1#64 <<< c.line)
    lateFail := if m.lateFail = some c.line then none else m.lateFail } := by
  simp only [Migration.lateDone, h, ha, Bool.false_eq_true, if_false]
  rfl

theorem lateWriteFail_first (hm : s.mig.current = some m) (h : m.lateFail ≠ some c.line) :
    lateWriteFail m c s = { s with
      mig := { s.mig with current := some { m with lateFail := some c.line, lateCopy := none } } } := by
  simp only [lateWriteFail, if_neg h, updMig, hm, Option.map_some]
  rfl

/-- A further fail of a line hands over POISON_SET, and the line's flag waits for its records alone, unless the line was
drained again. -/
theorem lateWriteFail_again (hm : s.mig.current = some m) (h : m.lateFail = some c.line) (hw : s.jrn.waiters = [])
    (hroom : s.jrn.staging.length < 16) : lateWriteFail m c s = { s with
      mig := { s.mig with
        current := some { m with
          lateCopy := none, lateAwaited := m.lateAwaited ++ [c.line]
          lateSettled := if c.redrained = true then m.lateSettled else m.lateSettled ||| 1#64 <<< c.line } }
      jrn := { s.jrn with
        staging := s.jrn.staging ++ [⟨.lateCopy c.line, .poisonSet (m.logical * 64 + c.line), none⟩] } } := by
  have hdone : Migration.lateDone c { m with lateAwaited := m.lateAwaited ++ [c.line] } = { m with
      lateCopy := none, lateAwaited := m.lateAwaited ++ [c.line]
      lateSettled := if c.redrained = true then m.lateSettled else m.lateSettled ||| 1#64 <<< c.line } := by
    cases hd : c.redrained with
    | true => exact lateDone_redrained hd
    | false => exact lateDone_awaited hd (by simp)
  rw [lateWriteFail, if_pos h, lateRecord_joins hm hw hroom, ← hdone]
  rfl

end

end Sys2Proof.Machine
end

section
/-! SUPPORT. The completion of an abort: the target's ordered place in the pool, and the marks (R9, R13, R15, R103). -/

namespace Sys2Proof.Machine

/-! ### The pool (R13, R15) -/

section
variable {frames : List FrameRecord} {f : Nat}

theorem poolBefore_iff (a b : Nat) : poolBefore frames a b = true ↔
    wearIn frames a < wearIn frames b ∨ (wearIn frames a = wearIn frames b ∧ a < b) := by
  simp [poolBefore]

/-- A frame is inserted behind those that stand before it, and in front of those it stands before. -/
theorem insertPool_append {before after : List Nat} (hbefore : ∀ x ∈ before, poolBefore frames f x = false)
    (hafter : ∀ x ∈ after, poolBefore frames f x = true) :
    insertPool frames f (before ++ after) = before ++ f :: after := by
  induction before with
  | nil =>
    cases after with
    | nil => rfl
    | cons x after => exact if_pos (hafter x List.mem_cons_self)
  | cons x before ih =>
    have hrest := ih fun y hy => hbefore y (List.mem_cons_of_mem x hy)
    rw [List.cons_append, insertPool, if_neg (by simp [hbefore x]), hrest]
    rfl

/-- An update of a frame's record keeps what it keeps of each record. -/
theorem map_getElem?_modify {α : Type} (p : FrameRecord → α) {g : FrameRecord → FrameRecord} (hg : ∀ x, p (g x) = p x)
    (i k : Nat) : (frames.modify i g)[k]?.map p = frames[k]?.map p := by
  rw [List.getElem?_modify]
  cases frames[k]? with
  | none => rfl
  | some r => by_cases hik : i = k <;> simp [hik, hg]

end

/-! ### The target of an aborted migration (R103) -/

section
variable {s : State} {m : Migration} {target : Nat}

theorem returnTarget_none (ht : m.target = none) : returnTarget m s = s := by
  simp only [returnTarget, ht]

/-- The target still held becomes SPARE, at the place its wear and its number give it. -/
theorem returnTarget_joins {r : FrameRecord} {before after : List Nat} (ht : m.target = some target)
    (hf : s.frame? target = some r) (hrole : r.role = .target) (hpool : s.map.pool = before ++ after)
    (hbefore : ∀ f ∈ before, wearIn s.map.frames f < r.wear ∨ (wearIn s.map.frames f = r.wear ∧ f < target))
    (hafter : ∀ f ∈ after, r.wear < wearIn s.map.frames f ∨ (r.wear = wearIn s.map.frames f ∧ target < f)) :
    returnTarget m s = s.setMap { s.map with
      frames := s.map.frames.modify target fun x => { x with role := .spare, owner := none }
      pool := before ++ target :: after } := by
  have hwear : ∀ k, wearIn (s.map.frames.modify target fun x => { x with role := .spare, owner := none }) k =
      wearIn s.map.frames k := fun k =>
    congrArg (·.getD 0) (map_getElem?_modify (g := fun x => { x with role := .spare, owner := none }) (·.wear)
      (fun _ => rfl) target k)
  have htarget : wearIn s.map.frames target = r.wear := congrArg (fun x => (x.map FrameRecord.wear).getD 0) hf
  have hplace := insertPool_append (f := target) (before := before) (after := after)
    (frames := s.map.frames.modify target fun x => { x with role := .spare, owner := none })
    (fun x hx => by
      have := hbefore x hx
      rw [Bool.eq_false_iff, Ne, poolBefore_iff, hwear, hwear, htarget]
      omega)
    (fun x hx => by rw [poolBefore_iff, hwear, hwear, htarget]; exact hafter x hx)
  simp only [returnTarget, ht, hf, hrole, Option.map_some, if_true]
  rw [← hplace, ← hpool]
  rfl

/-! ### The marks, and the end (R9, R103) -/

/-- The migration mark is removed, and with it the fail mark unless it is kept. -/
theorem abortMarks_eq (l : Nat) {keeps : Bool} (s : State) :
    (if keeps = true then setMigrationMark l false s else setFailMark l false (setMigrationMark l false s)) =
      updEntry l (fun x => { x with migrationMark := false, failMark := x.failMark && keeps }) s := by
  cases keeps with
  | true => simp only [Bool.and_true]; rfl
  | false =>
    simp only [Bool.and_false]
    exact congrArg (fun x => s.setMap { s.map with entries := x }) (List.modify_modify_eq _ _ _ _)

/-- What an abort adds to the return of the target, where that leaves the retire-wanted mark of the source. -/
theorem completeAbort_eq {v : State} {keeps : Bool} (hv : returnTarget m s = v) (hunit : v.unit = s.unit)
    (hwanted : (v.frame? m.source).map (·.wanted) = (s.frame? m.source).map (·.wanted))
    (hkeeps : keeps = s.keepsFailMark m.source) : completeAbort m s = { v with
      map := { v.map with
        entries := v.map.entries.modify m.logical fun x =>
          { x with migrationMark := false, failMark := x.failMark && keeps } }
      mig := { v.mig with current := none, lastResult := some ⟨m.logical, m.reason, .aborted, v.time.tick⟩ }
      health := { v.health with migrationsAborted := satRaise max32 v.health.migrationsAborted }
      link := v.flagged .migrationAborted } := by
  have hkept : (setMigrationMark m.logical false v).keepsFailMark m.source = keeps := by
    change (decide (v.unit.state = .online) && ((v.frame? m.source).map (·.wanted)).getD false) = keeps
    rw [hkeeps, hunit, hwanted]
    rfl
  simp only [completeAbort, hv, hkept, abortMarks_eq]
  rfl

theorem exec_abortComplete (hs : s.working = true) (hm : s.mig.current = some m) (hphase : m.phase ≠ .commitWait)
    (habort : m.abortPending = true) (hidle : s.engineInFlight = false) :
    exec .abortComplete s = .next (settle (completeAbort m (beginHappening s))) := by
  have hend : abortComplete? (beginHappening s) = some (completeAbort m (beginHappening s)) := by
    have hs : (beginHappening s).working = true := hs
    have hidle : (beginHappening s).engineInFlight = false := hidle
    simp only [abortComplete?, beginHappening_frame, hm, hs, habort, hidle, ne_eq, hphase, not_false_eq_true,
      decide_true, Bool.not_false, Bool.and_self, if_true]
  exact congrArg (fun u => Host.Outcome.next (settle u)) (perform_of_some hend)

end

/-- Settles O38: the start and the outcomes of a late copy, and the end of an abort with and without a target. -/
theorem lateCopiesAndAbortsEnd : Obligations.LateCopiesAndAbortsEnd := by
  refine ⟨fun m target i s hs hm hphase hdrain hidle ht hi hlate hopen hlow => ?_,
    fun m target c bit op s hm hphase ht hc hbit hr hf => ⟨fun stored hop => ⟨fun data h0 => ?_,
      fun r hfar hlock hl hframe hrole hw hroom => ?_⟩, fun hop done hdone => ?_⟩,
    fun m s hs hm hphase habort hidle keeps hkeeps done hdone => ?_⟩
  · obtain ⟨hf, hr⟩ := not_stopped_of_working hs
    rw [exec_lateCopyStart hs hm hphase hdrain (nextLate_eq hidle hi hlate hopen hlow),
      startCopy_eq (s := (beginHappening s).setMig _) (m := { m with lateCopy := some ⟨i, false⟩ }) hf hr rfl ht]
    rfl
  · exact exec_copyReadComplete_late hop (decodeStored_clean h0) (readOutcome_clean _ _ _) hm hphase hc
      (lateReadOutcome_delivered hf hr ht rfl)
  · have hstopping : s.running = false := not_running_of_stopping (.inl hlock)
    subst hbit
    exact exec_copyReadComplete_late hop (decodeStored_uncorrectable hfar) (readOutcome_uncorrectable _ _) hm hphase hc
      (lateReadOutcome_uncorrectable hf hr ht hstopping hl hframe hrole hm hw hroom)
  · subst hbit
    have hstored {x : Migration} (hx : m.lateDone c = { x with lateCopy := none }) :
        exec (.copyWriteComplete op.id .stored) s = .next (settle (done x)) := by
      refine exec_copyWriteComplete_lateStored hop hm hphase hc ?_
      rw [hdone, ← hx, writeOutcome_stored]
      exact lateWriteDone_eq hm
    refine ⟨fun hagain => hstored (lateDone_redrained hagain), fun hlast ha => hstored (lateDone_awaited hlast ha),
      fun hlast ha => hstored (lateDone_clears hlast ha), fun failed hfailed => ⟨fun hfirst => ?_,
        fun hagain hw hroom => ?_⟩⟩
    · refine exec_copyWriteComplete_lateFails hop hm hphase hc ?_
      rw [hfailed, hdone, writeOutcome_programFail]
      exact lateWriteFail_first hm hfirst
    · refine exec_copyWriteComplete_lateFails hop hm hphase hc ?_
      rw [hfailed, hdone, writeOutcome_programFail]
      exact lateWriteFail_again hm hagain hw hroom
  · rw [exec_abortComplete hs hm hphase habort hidle]
    refine ⟨fun ht => ?_, fun target r before after ht hframe hrole hpool hbefore hafter => ?_⟩
    · rw [completeAbort_eq (returnTarget_none (s := beginHappening s) ht) rfl rfl hkeeps, hdone]
      rfl
    · have hv := returnTarget_joins (s := beginHappening s) ht hframe hrole hpool hbefore hafter
      have hwanted := map_getElem?_modify (frames := s.map.frames)
        (g := fun x => { x with role := .spare, owner := none }) (·.wanted) (fun _ => rfl) target m.source
      rw [completeAbort_eq hv rfl hwanted hkeeps, hdone]
      rfl

end Sys2Proof.Machine
end

section
/-! SUPPORT. The re-queuing of the wear sweep: its frames, one offer, and the offers in order (R83, R113). -/

namespace Sys2Proof.Machine

/-! ### The frames of the re-queuing (R113) -/

section
variable {s : State}

theorem wantedFrames_ascending (s : State) : s.wantedFrames.Pairwise (· < ·) := by
  have hsub : s.wantedFrames.Sublist (s.map.frames.zipIdx.map (·.2)) := List.filter_sublist.map _
  rw [List.zipIdx_map_snd] at hsub
  exact List.Pairwise.sublist hsub List.pairwise_lt_range'

theorem mem_wantedFrames {f : Nat} : f ∈ s.wantedFrames ↔
    ∃ r, s.frame? f = some r ∧ r.role = .mapped ∧ r.wanted = true ∧ r.overdue = false := by
  simp [State.wantedFrames, State.frame?, List.mem_zipIdx_iff_getElem?, and_assoc]

/-! ### One frame's offer (R113) -/

/-- The request that the re-queuing makes for a wanted frame: for its owner, whose entry names it and which is neither
queued nor moving, and for the reason by R113. -/
def State.Offers (s : State) (f l : Nat) (reason : Reason) : Prop :=
  ∃ r e, s.frame? f = some r ∧ r.owner = some l ∧ s.entry? l = some e ∧ e.frame = f ∧ s.mig.isQueued l = false ∧
    s.mig.isMoving l = false ∧
    reason = (if e.failMark = true then .retireProgram else if s.retireWear ≤ r.wear then .retireWear else .retireError)

theorem offerFrame_passes {f l : Nat} {r : FrameRecord} (hf : s.frame? f = some r) (howner : r.owner = some l)
    (h : s.mig.isQueued l = true ∨ s.mig.isMoving l = true) : offerFrame s f = s := by
  rcases h with h | h <;> simp [offerFrame, hf, howner, h]

/-- A queue full of retire requests takes no request of a frame that is neither queued nor moving (R83). -/
theorem retireRequest_refuses {l : Nat} (reason : Reason) (hmoving : s.mig.isMoving l = false)
    (hqueued : s.mig.isQueued l = false) (hfull : 8 ≤ s.mig.queued) (hback : s.mig.backQueue = []) :
    retireRequest l reason s = s := by
  unfold retireRequest
  split
  case isFalse => rfl
  cases ho : s.overdueFrame l with
  | true => exact handleRetire_overdue reason ho
  | false => exact handleRetire_refuses reason ho hmoving hqueued hfull hback

theorem offerFrame_full (hfull : 8 ≤ s.mig.queued) (hback : s.mig.backQueue = []) (f : Nat) : offerFrame s f = s := by
  unfold offerFrame
  split
  case h_2 => rfl
  split
  case h_2 => rfl
  split
  case isFalse => rfl
  next h =>
    simp only [Bool.and_eq_true, Bool.not_eq_true'] at h
    obtain ⟨⟨-, hqueued⟩, hmoving⟩ := h
    exact retireRequest_refuses _ hmoving hqueued hfull hback

theorem overdueFrame_of_entry {l : Nat} {e : MapEntry} {r : FrameRecord} (he : s.entry? l = some e)
    (hr : s.frame? e.frame = some r) : s.overdueFrame l = r.overdue := by
  simp [State.overdueFrame, he, hr]

section
variable {f l : Nat} {reason : Reason} (hwanted : f ∈ s.wantedFrames) (h : s.Offers f l reason)
include hwanted h

theorem not_overdueFrame_of_offers : s.overdueFrame l = false := by
  obtain ⟨r, hr, -, -, hoverdue⟩ := mem_wantedFrames.mp hwanted
  obtain ⟨-, e, -, -, he, rfl, -⟩ := h
  exact (overdueFrame_of_entry he hr).trans hoverdue

theorem offerFrame_offers (hs : s.running = true) : offerFrame s f = handleRetire l reason s := by
  obtain ⟨r, hr, hrole, hmark, hoverdue⟩ := mem_wantedFrames.mp hwanted
  obtain ⟨r', e, hr', howner, he, -, hqueued, hmoving, rfl⟩ := h
  obtain rfl : r = r' := Option.some.inj (hr.symm.trans hr')
  simp only [offerFrame, hr, howner, hrole, hmark, hoverdue, hqueued, hmoving, he, retireRequest, hs, offeredReason,
    decide_true, Bool.not_false, Bool.and_self, if_true, Option.map_some, Option.getD_some]

theorem offerFrame_joins (hs : s.running = true) (hroom : s.mig.queued < 8) :
    offerFrame s f = joinRetire ⟨l, reason⟩ s := by
  rw [offerFrame_offers hwanted h hs]
  have ho := not_overdueFrame_of_offers hwanted h
  obtain ⟨-, -, -, -, -, -, hqueued, hmoving, -⟩ := h
  exact handleRetire_joins reason ho hmoving hqueued hroom

theorem offerFrame_evicts (hs : s.running = true) (hfull : 8 ≤ s.mig.queued) (hback : s.mig.backQueue ≠ []) :
    offerFrame s f = joinRetire ⟨l, reason⟩ (evictNewest s) := by
  rw [offerFrame_offers hwanted h hs]
  have ho := not_overdueFrame_of_offers hwanted h
  obtain ⟨-, -, -, -, -, -, hqueued, hmoving, -⟩ := h
  exact handleRetire_evicts reason ho hmoving hqueued hfull hback

end

/-! ### The offers in their order (R113) -/

theorem requeue_none (h : ∀ f ∈ s.wantedFrames, offerFrame s f = s) : requeue s = s :=
  List.foldlRecOn s.wantedFrames offerFrame (motive := (· = s)) rfl fun u hu f hf => by
    subst hu
    exact h f hf

theorem joinRetire_queued (q : MigRequest) (s : State) : (joinRetire q s).mig.queued = s.mig.queued + 1 := by
  simp only [joinRetire, State.setMig_mig, MigrationEngine.queued, List.length_append, List.length_singleton]
  omega

theorem joinRetire_isQueued (q : MigRequest) (l : Nat) (s : State) :
    (joinRetire q s).mig.isQueued l = (s.mig.isQueued l || decide (q.logical = l)) := by
  simp only [joinRetire, State.setMig_mig, MigrationEngine.isQueued, names, List.any_append, List.any_cons,
    List.any_nil, Bool.or_false, Bool.or_right_comm]

/-- A request that has joined stands in the way of its own owner alone, and the entry of an owner names one frame. -/
theorem State.Offers.after_join {f g l k : Nat} {reason reason' : Reason} (hne : f ≠ g) (hf : s.Offers f l reason)
    (hg : s.Offers g k reason') : (joinRetire ⟨l, reason⟩ s).Offers g k reason' := by
  obtain ⟨-, e, -, -, he, rfl, -⟩ := hf
  obtain ⟨r, e', hr, howner, he', rfl, hqueued, hmoving, hreason⟩ := hg
  have hlk : l ≠ k := by
    rintro rfl
    exact hne (congrArg MapEntry.frame (Option.some.inj (he.symm.trans he')))
  exact ⟨r, e', hr, howner, he', rfl, by simp [joinRetire_isQueued, hqueued, hlk], hmoving, hreason⟩

/-- With room for all, offers of different frames join the retire class in their order. -/
theorem foldl_offerFrame_joins {ownerOf : Nat → Nat} {reasonOf : Nat → Reason} :
    ∀ (fs : List Nat) (s : State), s.running = true → fs.Nodup →
      (∀ f ∈ fs, f ∈ s.wantedFrames ∧ s.Offers f (ownerOf f) (reasonOf f)) → s.mig.queued + fs.length ≤ 8 →
      fs.foldl offerFrame s = s.setMig { s.mig with
        retireQueue := s.mig.retireQueue ++ fs.map fun f => ⟨ownerOf f, reasonOf f⟩ } := by
  intro fs
  induction fs with
  | nil =>
    intro s _ _ _ _
    rw [List.map_nil, List.append_nil]
    rfl
  | cons f fs ih =>
    intro s hs hnodup hoffers hroom
    obtain ⟨hnotin, hnodup⟩ := List.nodup_cons.mp hnodup
    obtain ⟨⟨hwanted, hf⟩, hrest⟩ := List.forall_mem_cons.mp hoffers
    rw [List.length_cons] at hroom
    have hafter : ∀ g ∈ fs, g ∈ (joinRetire ⟨ownerOf f, reasonOf f⟩ s).wantedFrames ∧
        (joinRetire ⟨ownerOf f, reasonOf f⟩ s).Offers g (ownerOf g) (reasonOf g) := fun g hg => by
      obtain ⟨hgwanted, hgoffers⟩ := hrest g hg
      exact ⟨hgwanted, hf.after_join (ne_of_mem_of_not_mem hg hnotin).symm hgoffers⟩
    rw [List.foldl_cons, offerFrame_joins hwanted hf hs (by omega),
      ih (joinRetire ⟨ownerOf f, reasonOf f⟩ s) hs hnodup hafter (by rw [joinRetire_queued]; omega)]
    simp [joinRetire, State.setMig]

end

/-- Settles O31: the frames of the re-queuing, and their offers in ascending order. -/
theorem requeuingOffersWantedFramesInOrder : Obligations.RequeuingOffersWantedFramesInOrder := by
  intro s
  refine ⟨wantedFrames_ascending s, fun f => mem_wantedFrames, ?_, fun h => requeue_none fun f hf => ?_,
    fun ownerOf reasonOf hs hoffers => ⟨fun hroom => ?_, fun f rest last hone hfull hback => ?_⟩⟩
  · rintro (hnone | ⟨hfull, hback⟩)
    · exact requeue_none (by simp [hnone])
    · exact requeue_none fun f _ => offerFrame_full hfull hback f
  · obtain ⟨r, l, hr, howner, hbusy⟩ := h f hf
    exact offerFrame_passes hr howner hbusy
  · exact foldl_offerFrame_joins _ s hs ((wantedFrames_ascending s).imp Nat.ne_of_lt)
      (fun f hf => ⟨hf, hoffers f hf⟩) hroom
  · have hf : f ∈ s.wantedFrames := by simp [hone]
    rw [requeue, hone, List.foldl_cons, List.foldl_nil,
      offerFrame_evicts hf (hoffers f hf) hs hfull (by simp [hback]), evictNewest_eq hback]
    rfl

end Sys2Proof.Machine
end

section
/-! SUPPORT. The start of a checkpoint, CHECKPOINT_NOW, and the entry to CLOSING (R128, R129, R156, R163). -/

namespace Sys2Proof.Machine

/-! ### The start of a checkpoint (R128, R129) -/

/-- A checkpoint as it starts, in the area that the descriptor does not name and one sequence on (R129). -/
def startingCheckpoint (d : Descriptor) (clean : Bool) : Checkpoint :=
  { phase := .starting, area := if d.area = .a then .b else .a, seq := d.seq + 1, posSeq := 0#32, posSlot := 0,
    clean := clean, linesWritten := 0, image := Image.none, imageCheck := 0#32, slotsTaken := 0 }

theorem area_other_eq (area : Area) : area.other = if area = .a then .b else .a := by
  cases area <;> rfl

theorem startCheckpoint_eq {s : State} {d : Descriptor} (hd : s.jrn.descriptor = some d) (clean : Bool) :
    startCheckpoint clean s = s.setJrn { s.jrn with checkpoint := some (startingCheckpoint d clean) } := by
  simp only [startCheckpoint, hd, Option.map_some, Option.getD_some, area_other_eq]
  rfl

/-! ### CHECKPOINT_NOW (R128) -/

theorem exec_checkpointNow (tag : Byte) {s : State} (hs : s.running = true) : exec (.checkpointNow tag []) s =
    .next (settle (if s.jrn.checkpoint.isSome then respond tag .busy [] (beginHappening s)
      else respond tag .accepted [] (startCheckpoint false (beginHappening s)))) :=
  congrArg (fun u => Host.Outcome.next (settle u))
    (judge_run (s := beginHappening s) (not_reset_of_running hs) rfl hs rfl)

/-! ### The entry to CLOSING (R156, R163) -/

/-- With no request waiting, the entry to CLOSING empties the queue and removes the fail marks (R163). -/
theorem enterClosing_eq {s : State} (restart : Bool) (h : ∀ e ∈ s.host.entries, e.standing ≠ .waiting) :
    enterClosing restart s = { s with
      unit := { s.unit with state := .closing, stage := some .emptying, restartPending := restart }
      map := { s.map with entries := s.map.entries.map fun e => { e with failMark := false } }
      mig := { s.mig with retireQueue := [], backQueue := [] }
      link := s.flagged .stateChanged } :=
  refuseWaiting_of_none h

theorem exec_prepareOff (tag : Byte) {s : State} (hs : s.running = true) : exec (.prepareOff tag []) s =
    .next (settle (respond tag .accepted [] (enterClosing false (beginHappening s)))) :=
  congrArg (fun u => Host.Outcome.next (settle u))
    (judge_run (s := beginHappening s) (not_reset_of_running hs) rfl hs rfl)

theorem exec_restart_running (tag : Byte) {s : State} (hs : s.running = true) : exec (.restart tag []) s =
    .next (settle (respond tag .accepted [] (enterClosing true (beginHappening s)))) := by
  have hs' : (beginHappening s).running = true := hs
  have hmay : (beginHappening s).mayRestart = true := by simp [State.mayRestart, hs']
  have hrun : restartNow tag (beginHappening s) = respond tag .accepted [] (enterClosing true (beginHappening s)) :=
    if_pos hs'
  rw [← hrun]
  exact congrArg (fun u => Host.Outcome.next (settle u)) (judge_run (not_reset_of_running hs') rfl hmay rfl)

/-- Settles O53: each command passes the checks of R183 and is executed. -/
theorem checkpointNowAndClosingBegin : Obligations.CheckpointNowAndClosingBegin := by
  intro tag s hstate
  have hs := (running_iff s).mpr hstate
  refine ⟨fun hbusy => ?_, fun d hidle hd => ?_, fun hnone closing hclosing => ⟨?_, ?_⟩⟩
  · rw [exec_checkpointNow tag hs, if_pos (Option.isSome_iff_ne_none.mpr hbusy), respond_beginHappening]
  · rw [exec_checkpointNow tag hs, if_neg (by simp [hidle]), startCheckpoint_eq (s := beginHappening s) hd]
    rfl
  · rw [exec_prepareOff tag hs, enterClosing_eq (s := beginHappening s) false hnone, hclosing]
    rfl
  · rw [exec_restart_running tag hs, enterClosing_eq (s := beginHappening s) true hnone, hclosing]
    rfl

end Sys2Proof.Machine
end

section
/-! SUPPORT. The issue of the head record, the ring trigger, and the joining of a waiting creator (R122, R123, R126, R128). -/

namespace Sys2Proof.Machine

/-! ### The ring trigger (R126, R128) -/

section
variable {s : State}

theorem ringUsed_eq (s : State) :
    s.ringUsed = if s.jrn.full = true then 2048 else (s.jrn.head + 2048 - s.jrn.tail) % 2048 := rfl

/-- What makes the ring start a checkpoint (R128). -/
def State.RingTriggers (s : State) : Prop :=
  1536 ≤ s.ringUsed ∧ (s.running = true ∨ s.unit.state = .closing) ∧ s.jrn.checkpoint = none

theorem ringTrigger_starts (h : s.RingTriggers) : ringTrigger s = startCheckpoint false s := by
  obtain ⟨hused, hstate, hidle⟩ := h
  simp [ringTrigger, triggerCheckpoint, Config.ringTrigger, hused, hstate, hidle]

theorem ringTrigger_passes (h : ¬s.RingTriggers) : ringTrigger s = s := by
  unfold ringTrigger
  split
  · rename_i hc
    simp only [Bool.and_eq_true, Bool.or_eq_true, decide_eq_true_eq] at hc
    obtain ⟨hused, hstate⟩ := hc
    rcases triggerCheckpoint_cases s with ⟨hidle, -⟩ | ⟨-, hkeep⟩
    · exact absurd ⟨hused, hstate, hidle⟩ h
    · exact hkeep
  · rfl

end

/-! ### The issue of a record (R123) -/

section
variable {s : State} {r : StagedRecord} {rest : List StagedRecord}

/-- A request that the Journal Controller hands over with its own new state. -/
theorem request_setJrn (hf : s.unit.state ≠ .failed) (hr : s.unit.state ≠ .reset) (q : MediaRequest)
    (j : JournalController) : request q (s.setJrn j) =
      { s with jrn := j, media := { s.media with arriving := s.media.arriving ++ [q] } } :=
  request_eq (s := s.setJrn j) hf hr q

theorem startingHolds_eq_false {j : JournalController} (h : ∀ c, j.checkpoint = some c → c.phase ≠ .starting) :
    j.startingHolds = false := by
  unfold JournalController.startingHolds
  split
  · exact decide_eq_false (h _ ‹_›)
  · rfl

theorem not_stopped_of_issues (h : s.working = true ∨ s.unit.state = .safe) :
    s.unit.state ≠ .failed ∧ s.unit.state ≠ .reset := by
  rcases h with h | h
  · exact not_stopped_of_working h
  · simp [h]

theorem recordIssue?_some (hq : s.jrn.staging = r :: rest) (hidle : s.jrn.writing = false) (hroom : s.jrn.full = false)
    (hfix : ∀ c, s.jrn.checkpoint = some c → c.phase ≠ .starting) (hs : s.working = true ∨ s.unit.state = .safe) :
    recordIssue? s = some (issueRecord r rest s) := by
  have hmay : s.mayIssueRecord = true := by
    simpa [State.mayIssueRecord, hidle, hroom, startingHolds_eq_false hfix] using hs
  simp only [recordIssue?, hq, hmay, if_true]

theorem exec_recordWriteIssue {t : State} (h : recordIssue? (beginHappening s) = some t) :
    exec .recordWriteIssue s = .next (settle t) :=
  congrArg (fun u => Host.Outcome.next (settle u)) (perform_of_some h)

/-- The state in which the head record has been issued, with the checkpoint in progress as given (R123, R126). -/
def State.issued (s : State) (r : StagedRecord) (rest : List StagedRecord) (checkpoint : Option Checkpoint) : State :=
  { s with
    jrn := { s.jrn with
      staging := { r with seq := some (r.seq.getD s.jrn.nextSeq) } :: rest
      writing := true
      head := (s.jrn.head + 1) % 2048
      full := decide ((s.jrn.head + 1) % 2048 = s.jrn.tail)
      nextSeq := if r.seq = none then s.jrn.nextSeq + 1 else s.jrn.nextSeq
      fence :=
        match r.record, r.seq with
        | .fenceSet v, none => v
        | _, _ => s.jrn.fence
      checkpoint := checkpoint }
    media := { s.media with
      arriving := s.media.arriving ++
        [⟨.journal, .journal, .write (.metaLine (.record (r.seq.getD s.jrn.nextSeq) r.record true)),
          slotLine s.nP s.jrn.head⟩] } }

/-- The journaled fence follows a FENCE_SET at its first issue alone (R123). -/
theorem journaledAfter_eq (record : JournalRecord) (seq : Option Word32) (fence : Nat) :
    journaledAfter record seq.isNone fence =
      match record, seq with
      | .fenceSet v, none => v
      | _, _ => fence := by
  cases record <;> cases seq <;> rfl

/-- The issue of the head record, before the ring trigger is judged: a checkpoint in progress counts the slot taken. -/
theorem issueRecord_eq (hs : s.working = true ∨ s.unit.state = .safe) : issueRecord r rest s =
    ringTrigger (s.issued r rest (s.jrn.checkpoint.map fun c => { c with slotsTaken := c.slotsTaken + 1 })) := by
  obtain ⟨hf, hr⟩ := not_stopped_of_issues hs
  simp only [issueRecord, journaledAfter_eq, Option.isNone_iff_eq_none, request_setJrn hf hr]
  rfl

end

/-! ### A waiting creator (R122) -/

section
variable {s : State} {w : Waiter} {ws : List Waiter} {r : JournalRecord} {more : List JournalRecord}

/-- The buffer after a waiting creator's record has joined: a drain's POISON_CLEAR ends the drain (R37). -/
def AbsorbBuffer.afterJoin (b : AbsorbBuffer) (c : Creator) (r : JournalRecord) : AbsorbBuffer :=
  match c, r with
  | .drain p, .poisonClear _ => { b with drains := b.drains.filter fun d => d.place ≠ p }
  | _, _ => b

theorem onJoined_eq (c : Creator) (r : JournalRecord) (s : State) :
    onJoined c r s = s.setBuf (s.buf.afterJoin c r) := by
  cases c <;> cases r <;> rfl

theorem creatorJoin?_some (hw : s.jrn.waiters = w :: ws) (hr : w.records = r :: more)
    (hroom : s.jrn.staging.length < 16) (hf : s.unit.state ≠ .failed) : creatorJoin? s = some { s with
      jrn := { s.jrn with
        staging := s.jrn.staging ++ [⟨w.creator, r, none⟩]
        waiters := if more = [] then ws else ⟨w.creator, more⟩ :: ws }
      buf := s.buf.afterJoin w.creator r } := by
  have hplace : s.stagingRoom = true := decide_eq_true hroom
  simp only [creatorJoin?, hplace, hw, hr, hf, ne_eq, not_false_eq_true, decide_true, Bool.and_self, if_true,
    onJoined_eq, List.isEmpty_iff]
  rfl

end

/-- Settles O39: the head record is issued and the ring trigger judged; the first waiter's record joins. -/
theorem recordsJoinAndAreIssued : Obligations.RecordsJoinAndAreIssued := by
  refine ⟨?_, fun w ws r more s hw hr hroom hf => ?_⟩
  · intro r rest s hq hidle hroom hfix hs seq head used full done hseq hhead hfull hused hdone triggers htriggers
    subst hseq hhead hfull
    have hissue := exec_recordWriteIssue (s := s)
      ((recordIssue?_some (s := beginHappening s) hq hidle hroom hfix hs).trans
        (congrArg some (issueRecord_eq (s := beginHappening s) hs)))
    have hring : ((beginHappening s).issued r rest
        ((beginHappening s).jrn.checkpoint.map fun c => { c with slotsTaken := c.slotsTaken + 1 })).RingTriggers ↔
          triggers := by
      rw [htriggers, hused, State.RingTriggers, ringUsed_eq]
      exact and_congr_right' (and_congr_right' Option.map_eq_none_iff)
    refine ⟨fun hnot => ?_, fun d hyes hd => ?_⟩
    · rw [hissue, ringTrigger_passes (mt hring.mp hnot), hdone]
      rfl
    · rw [hissue, ringTrigger_starts (hring.mpr hyes),
        startCheckpoint_eq (s := (beginHappening s).issued r rest _) hd, hdone]
      rfl
  · exact congrArg (fun u => Host.Outcome.next (settle u))
      (perform_of_some (creatorJoin?_some (s := beginHappening s) hw hr hroom hf))

end Sys2Proof.Machine
end

section
/-! SUPPORT. The ends of DRAIN_LOCK and of CLOSING: SAFE, its leaving in the same happening, and the volatile reset (R156,
R157, R161, R164, R167). -/

namespace Sys2Proof.Machine

section
variable {s : State}

theorem abandonCheckpoint_of_none (h : s.jrn.checkpoint = none) : abandonCheckpoint s = s := by
  have hjrn : { s.jrn with checkpoint := none } = s.jrn := by rw [← h]
  simp only [abandonCheckpoint, h, hjrn, Option.isSome_none, Bool.false_eq_true, if_false]
  rfl

/-- The state in which SAFE is entered at the end of a sequence, with no checkpoint in progress (R161, R164). -/
def State.inSafe (s : State) (origin : SafeOrigin) : State :=
  { s with
    unit := { s.unit with state := .safe, safeOrigin := some origin, stage := none, restartPending := false }
    link := s.flagged .stateChanged }

theorem enterSafe_eq (hidle : s.jrn.checkpoint = none) (origin : SafeOrigin) : enterSafe origin s =
    if origin = .drainLock ∧ s.unit.holdUp = false then leaveSafeDrainLock (s.inSafe origin) else s.inSafe origin := by
  have hentered : enterState .safe (s.setUnit { s.unit with
    safeOrigin := some origin, stage := none, restartPending := false }) = s.inSafe origin := rfl
  simp only [enterSafe, abandonCheckpoint_of_none hidle, hentered, Bool.and_eq_true, decide_eq_true_eq,
    Bool.not_eq_true']
  rfl

theorem enterSafe_stays {origin : SafeOrigin} (hidle : s.jrn.checkpoint = none)
    (h : origin = .prepareOff ∨ s.unit.holdUp = true) : enterSafe origin s = s.inSafe origin := by
  rw [enterSafe_eq hidle, if_neg]
  rintro ⟨rfl, hoff⟩
  rcases h with h | hon
  · cases h
  · simp [hoff] at hon

/-- An event raised twice stands as raised once (R185). -/
theorem flag_or_again (flags : BitVec 17) (e : Event) : flags ||| e.flag ||| e.flag = flags ||| e.flag := by
  rw [BitVec.or_assoc, BitVec.or_self]

/-- With the warning deasserted already, DRAIN_LOCK ends in ONLINE or WRITE_PROTECTED, with OPEN handed over (R167). -/
theorem enterSafe_leaves (hidle : s.jrn.checkpoint = none) (hoff : s.unit.holdUp = false) (hl : s.map.loaded = true)
    (hw : s.jrn.waiters = []) (hroom : s.jrn.staging.length < 16) : enterSafe .drainLock s = { s with
      unit := { s.unit with
        state := if s.map.latch = true then .writeProtected else .online, safeOrigin := none, stage := none
        restartPending := false }
      jrn := { s.jrn with staging := s.jrn.staging ++ [⟨.unitControl, .opened, none⟩] }
      link := s.flagged .stateChanged } := by
  have hloaded : (s.inSafe .drainLock).map.loaded = true := hl
  rw [enterSafe_eq hidle, if_pos ⟨rfl, hoff⟩, leaveSafeDrainLock, if_pos hloaded, leaveSafe,
    handOver_joins (s := s.inSafe .drainLock) _ _ hw hroom]
  simp only [enterState, raise, State.inSafe, State.flagged, State.setUnit, State.setJrn, State.setLink, flag_or_again]
  rfl

/-- Recovery begins, the warning not asserted, with the read of the geometry record (R144, R150). -/
theorem startRecovery_eq (hoff : s.unit.holdUp = false) : startRecovery s = { s with
    unit := { s.unit with state := .recovering, safeOrigin := none, recovery := some recoveryStart }
    media := { s.media with arriving := s.media.arriving ++ [unitRequest .read 0] }
    link := s.flagged .stateChanged } := by
  have hoff : ¬(enterState .recovering
      (s.setUnit { s.unit with recovery := some recoveryStart, safeOrigin := none })).unit.holdUp = true :=
    Bool.eq_false_iff.mp hoff
  rw [startRecovery, if_neg hoff, request_eq]
  exacts [rfl, nofun, nofun]

/-- The volatile reset, the warning not asserted: every block at its hard-reset value but the pending response and the
straps, and the read of the geometry record requested (R157). -/
theorem volatileReset_eq (hoff : s.unit.holdUp = false) : volatileReset s = { State.reset with
    out := { s.out with mediaDiscard := true }
    pending := s.pending
    unit := { State.reset.unit with
      state := .recovering, sizeStraps := s.unit.sizeStraps, addrStraps := s.unit.addrStraps
      recovery := some recoveryStart }
    media := { MediaPort.empty with arriving := [unitRequest .read 0] }
    link := ⟨s.link.response, Event.stateChanged.flag, 0#17⟩ } := by
  have hflags : State.reset.link.flags ||| Event.stateChanged.flag = Event.stateChanged.flag := BitVec.zero_or
  rw [volatileReset, startRecovery_eq (s := (hardReset s).setLink _) hoff, State.flagged, State.setLink_link, hardReset,
    hoff, hflags]
  rfl

theorem closingEnds_safe (hp : s.unit.restartPending = false) (hidle : s.jrn.checkpoint = none) :
    closingEnds s = s.inSafe .prepareOff := by
  rw [closingEnds, if_neg (by simp [hp]), enterSafe_stays hidle (.inl rfl)]

theorem closingEnds_restarts (hp : s.unit.restartPending = true) : closingEnds s = volatileReset s := if_pos hp

theorem shutdownDurable_drainLock (hs : s.unit.state = .drainLock) : shutdownDurable s = enterSafe .drainLock s :=
  if_pos hs

theorem shutdownDurable_closing (hs : s.unit.state = .closing) : shutdownDurable s = closingEnds s := by
  rw [shutdownDurable, if_neg (by simp [hs]), if_pos hs]

end

end Sys2Proof.Machine
end

section
/-! SUPPORT. The outcomes of a record write, and the effect of each record once durable (R34, R39, R101, R124, R125). -/

namespace Sys2Proof.Machine

/-! ### Whose operation ends (R63, R124) -/

section
variable {s : State} {op : InFlight} {q : Requester}

/-- A write in flight is found by any test that its requester passes. -/
theorem State.Writing.writeInFlight? (hop : s.Writing op q) {p : Requester → Bool} (hp : p q = true) :
    (beginHappening s).writeInFlight? op.id p = some op := by
  have hfound : (beginHappening s).inFlight? op.id = some op := hop.found
  simp [State.writeInFlight?, hfound, hop.kind, hop.requester, hp]

theorem exec_recordWriteComplete (report : WriteReport) (hop : s.Writing op .journal) :
    exec (.recordWriteComplete op.id report) s =
      .next (settle (recordOutcome report (writeOutcome op report (beginHappening s)))) := by
  change Host.Outcome.next (settle (match (beginHappening s).writeInFlight? op.id (· = .journal) with
    | some op => _
    | none => beginHappening s)) = _
  rw [hop.writeInFlight? (by simp)]

/-- The state in which the head record, durable, has left the staging queue (R124). -/
def State.recordStored (s : State) (op : InFlight) (rest : List StagedRecord) : State :=
  { s with
    out := Outputs.none, map := s.worn (op.request.physical / 64), media := s.freed op
    jrn := { s.jrn with writing := false, staging := rest } }

theorem exec_recordStored {r : StagedRecord} {rest : List StagedRecord} (hop : s.Writing op .journal)
    (hq : s.jrn.staging = r :: rest) : exec (.recordWriteComplete op.id .stored) s =
      .next (settle (recordEffect r.creator r.record (s.recordStored op rest))) := by
  have hq : (writeOutcome op .stored (beginHappening s)).jrn.staging = r :: rest := by simpa using hq
  rw [exec_recordWriteComplete .stored hop]
  simp only [recordOutcome, hq]
  rw [writeOutcome_stored]
  rfl

end

theorem recordEffect_shutdown (c : Creator) (s : State) : recordEffect c .shutdown s = shutdownDurable s := rfl

/-! ### POISON_SET (R8, R34, R39, R52) -/

section
variable {s : State} {d : Drain} {p : Fin 4} {line : Nat}

/-- A line's poison flag is set, in the pending mask too while its frame is in COMMIT_WAIT (R8, R101). -/
theorem setPoison_set (line : Nat) (s : State) : setPoison line true s = { s with
    map := { s.map with
      entries := s.map.entries.modify (line / 64) fun x => { x with poison := x.poison ||| 1#64 <<< (line % 64) } }
    mig := { s.mig with
      current := s.mig.current.map fun m => if m.phase = .commitWait ∧ m.logical = line / 64 then
          { m with pendingPoison := m.pendingPoison ||| 1#64 <<< (line % 64) }
        else m } } :=
  updMig_of_commitWait (line / 64) _
    (updEntry (line / 64) (fun e => { e with poison := putFlag e.poison (indexOf line) true }) s)

theorem recordEffect_drainPoisonSet (hd : s.drain? p = some d) (line : Nat) :
    recordEffect (.drain p) (.poisonSet line) s = drainRecordDurable d s := by
  simp only [recordEffect, hd]

/-- A drain in POISON_WAIT writes the line it has formed (R34). -/
theorem drainRecordDurable_poisonWait (hphase : d.phase = .poisonWait) (hf : s.unit.state ≠ .failed)
    (hr : s.unit.state ≠ .reset) : drainRecordDurable d s = { setPoison d.line true s with
      buf := { s.buf with
        drains := s.buf.drains.map fun x =>
          if x.place = d.place then { x with formed := d.formed, phase := .write } else x }
      media := { s.media with
        arriving := s.media.arriving ++ [⟨.drain, .drain d.place, .write (.data d.formed), d.physical⟩] }
      link := s.flagged .poisonCreated } := by
  simp only [drainRecordDurable, hphase, setPoison_set]
  exact drainToWrite_eq (s := raise .poisonCreated { s with map := _, mig := _ }) hf hr d d.formed

/-- With no READ waiting for the loss of a line, its end answers none (R52). -/
theorem endLossWaits_of_none (h : ∀ e ∈ s.host.entries, e.standing ≠ .reading true) (line : Nat) :
    endLossWaits line s = s := by
  have hnone : (s.host.entries.filter fun e => e.line = line && e.kind = .read && e.standing = .reading true) = [] := by
    rw [List.filter_eq_nil_iff]
    intro e he
    simp [h e he]
  rw [endLossWaits, hnone, List.foldl_nil]

/-- A drain in LOSING ends, and the writes held are lost (R39). -/
theorem drainRecordDurable_losing (hphase : d.phase = .losing) (h : ∀ e ∈ s.host.entries, e.standing ≠ .reading true) :
    drainRecordDurable d s = countLost (endDrain d.place (finishSlot d.line (setPoison d.line true s))) := by
  simp only [drainRecordDurable, hphase]
  exact endLossWaits_of_none (by simpa using h) d.line

/-! ### Late lines (R101, log entry 13) -/

/-- The migration after a late line's record is durable: one record of the line less is awaited, and the line's late
flag is cleared when its copy is done with and no other is. -/
def Migration.lateDurable (i : Nat) (m : Migration) : Migration :=
  if m.lateSettled.getLsbD i = true ∧ i ∉ m.lateAwaited.erase i then
    Migration.clearLate i { m with lateAwaited := m.lateAwaited.erase i }
  else { m with lateAwaited := m.lateAwaited.erase i }

theorem recordEffect_lateCopy (i line : Nat) (s : State) :
    recordEffect (.lateCopy i) (.poisonSet line) s = lateRecordDurable i s := rfl

/-- A late line's POISON_SET is durable, its frame in COMMIT_WAIT: the line's flags are set, and the record is no longer
awaited. -/
theorem lateRecordDurable_eq {m : Migration} {i : Nat} (hm : s.mig.current = some m) (hphase : m.phase = .commitWait)
    (hline : (m.logical * 64 + i) / 64 = m.logical) : lateRecordDurable i s = { s with
      map := (setPoison (m.logical * 64 + i) true s).map
      mig := { s.mig with
        current := some (Migration.lateDurable i
          { m with pendingPoison := m.pendingPoison ||| 1#64 <<< ((m.logical * 64 + i) % 64) }) } } := by
  simp only [lateRecordDurable, hm, lineAt, setPoison_set, updMig, Option.map_some, hphase, hline, and_self, if_true,
    Bool.and_eq_true, Bool.not_eq_true', List.contains_iff_mem, Bool.eq_false_iff, ne_eq]
  rfl

end

/-- Settles O40: the effect of each record of Table 7.2 on the state in which it has left the queue. -/
theorem recordOutcomesMakeRecordsDurable : Obligations.RecordOutcomesMakeRecordsDurable := by
  intro op r rest s u hop hq hu
  have hu : u = s.recordStored op rest := hu
  have hstored : ∀ t, recordEffect r.creator r.record u = t →
      exec (.recordWriteComplete op.id .stored) s = .next (settle t) := by
    rintro t rfl
    rw [hu]
    exact exec_recordStored hop hq
  have hunit : u.unit = s.unit := by rw [hu]; rfl
  have hdrain : ∀ p, u.drain? p = s.drain? p := by rw [hu]; exact fun _ => rfl
  refine ⟨fun hnone => hstored _ ?_, fun v hv => hstored _ ?_, fun l n o f p hmove => hstored _ ?_,
    fun line bit map current hset hbit hmap hcurrent => ⟨fun p d hc hd hline => ⟨fun hphase hr hf => hstored _ ?_,
      fun sl hphase hsl hreads => hstored _ ?_⟩, fun i m hc hi hm hphase hline done hdone => hstored _ ?_⟩,
    fun hshut hidle => ⟨fun hs hon => hstored _ ?_, fun hs hoff hl hw hroom => hstored _ ?_, fun hs hp => hstored _ ?_,
      fun hs hp hoff => hstored _ ?_⟩, ?_⟩
  · rcases hnone with h | ⟨f, h⟩ | ⟨l, h⟩ <;> rw [h] <;> rfl
  · rw [hv, hu]
    rfl
  · rw [hmove, hu]
    rfl
  · subst hline hbit
    obtain rfl := place_of_drain? hd
    rw [hset, hc, recordEffect_drainPoisonSet ((hdrain _).trans hd),
      drainRecordDurable_poisonWait hphase (by rwa [hunit]) (by rwa [hunit]), setPoison_set, hmap, hcurrent, hu]
    rfl
  · subst hline hbit
    obtain rfl := place_of_drain? hd
    have hslot : (setPoison d.line true u).slot? d.line = some sl := by
      rw [hu, setPoison_set]
      exact hsl
    rw [hset, hc, recordEffect_drainPoisonSet ((hdrain _).trans hd),
      drainRecordDurable_losing hphase (by rw [hu]; exact hreads)]
    cases hred : sl.redirty with
    | none =>
      rw [finishSlot_none hslot hred, freeSlot_eq, setPoison_set, hmap, hcurrent, hu]
      rfl
    | some mark =>
      rw [finishSlot_some hslot hred, setPoison_set, hmap, hcurrent, hu]
      rfl
  · have hdiv : line / 64 = m.logical := by omega
    have hmod : line % 64 = i := by omega
    rw [hset, hc, recordEffect_lateCopy, lateRecordDurable_eq (m := m) (by rw [hu]; exact hm) hphase (by rwa [← hline]),
      ← hline, setPoison_set, hmap, hdone, hbit, hmod, hu]
    rfl
  · rw [hshut, hu, recordEffect_shutdown, shutdownDurable_drainLock (s := s.recordStored op rest) hs]
    exact enterSafe_stays hidle (.inr hon)
  · rw [hshut, hu, recordEffect_shutdown, shutdownDurable_drainLock (s := s.recordStored op rest) hs]
    exact enterSafe_leaves hidle hoff hl hw hroom
  · rw [hshut, hu, recordEffect_shutdown, shutdownDurable_closing (s := s.recordStored op rest) hs]
    exact closingEnds_safe hp hidle
  · rw [hshut, hu, recordEffect_shutdown, shutdownDurable_closing (s := s.recordStored op rest) hs,
      closingEnds_restarts (s := s.recordStored op rest) hp]
    exact volatileReset_eq hoff
  · rw [exec_recordWriteComplete .programFail hop, writeOutcome_programFail]
    rfl

end Sys2Proof.Machine
end

section
/-! SUPPORT. The image fixed for a checkpoint, its writes, its commit and its failure (R129 to R134, R164, R165). -/

namespace Sys2Proof.Machine

/-! ### What the image shows (R130) -/

section
variable {s : State}

theorem mem_clearsOf {rs : List JournalRecord} {line : Nat} :
    line ∈ clearsOf rs ↔ JournalRecord.poisonClear line ∈ rs := by
  simp only [clearsOf, List.mem_filterMap]
  constructor
  · rintro ⟨r, hr, h⟩
    cases r <;> simp_all
  · exact fun h => ⟨_, h, rfl⟩

theorem mem_spareRetiresOf {rs : List JournalRecord} {f : Nat} :
    f ∈ spareRetiresOf rs ↔ JournalRecord.spareRetire f ∈ rs := by
  simp only [spareRetiresOf, List.mem_filterMap]
  constructor
  · rintro ⟨r, hr, h⟩
    cases r <;> simp_all
  · exact fun h => ⟨_, h, rfl⟩

theorem putFlag_set (m : Flags64) (i j : Nat) (hi : i < 64) :
    (putFlag m i true).getLsbD j = (m.getLsbD j || decide (i = j)) := by
  simp only [putFlag, flagBit, if_true, BitVec.getLsbD_or, BitVec.getLsbD_shiftLeft, BitVec.getLsbD_one]
  by_cases hij : i = j
  · subst hij
    simp [hi]
  · simp [hij]
    omega

theorem imagePoison_cons (line : Nat) (clears : List Nat) (l : Nat) (poison : Flags64) :
    imagePoison (line :: clears) l poison =
      imagePoison clears l (if line / 64 = l then putFlag poison (line % 64) true else poison) := rfl

/-- The image clears no poison flag. -/
theorem imagePoison_keeps {clears : List Nat} {l i : Nat} {poison : Flags64} (h : poison.getLsbD i = true) :
    (imagePoison clears l poison).getLsbD i = true := by
  induction clears generalizing poison with
  | nil => exact h
  | cons line clears ih =>
    rw [imagePoison_cons]
    apply ih
    split
    · rw [putFlag_set _ _ _ (Nat.mod_lt _ (by decide)), h, Bool.true_or]
    · exact h

/-- The image shows a line whose POISON_CLEAR is not issued as poisoned (R130). -/
theorem imagePoison_set {clears : List Nat} {line : Nat} (h : line ∈ clears) (poison : Flags64) :
    (imagePoison clears (line / 64) poison).getLsbD (line % 64) = true := by
  induction clears generalizing poison with
  | nil => simp at h
  | cons other clears ih =>
    rw [imagePoison_cons]
    rcases List.mem_cons.mp h with rfl | h
    · apply imagePoison_keeps
      rw [if_pos rfl, putFlag_set _ _ _ (Nat.mod_lt _ (by decide)), decide_eq_true rfl, Bool.or_true]
    · exact ih h _

theorem imageOf_entry {l : Nat} {e : MapEntry} (he : s.entry? l = some e) :
    (imageOf s).entries[l]? = some (e.frame, imagePoison (clearsOf s.jrn.unissued) l e.poison) := by
  have he : s.map.entries[l]? = some e := he
  simp [imageOf, List.getElem?_zipIdx, he]

theorem imageOf_frame {f : Nat} {r : FrameRecord} (hr : s.frame? f = some r) :
    (imageOf s).frames[f]? = some (imageFrame (spareRetiresOf s.jrn.unissued) f r) := by
  have hr : s.map.frames[f]? = some r := hr
  simp [imageOf, List.getElem?_zipIdx, hr]

theorem imageFrame_spare {retires : List Nat} {f : Nat} {r : FrameRecord} (h : r.role = .target ∨ f ∈ retires) :
    imageFrame retires f r = { r with role := .spare, owner := none } :=
  if_pos (by simpa using h)

theorem imageFrame_kept {retires : List Nat} {f : Nat} {r : FrameRecord} (hrole : r.role ≠ .target) (h : f ∉ retires) :
    imageFrame retires f r = r :=
  if_neg (by simp [hrole, h])

end

/-! ### The image fix (R129 to R131) -/

section
variable {s : State} {c : Checkpoint}

theorem positionSeq_eq (j : JournalController) :
    j.positionSeq = (j.staging.head?.bind (·.seq)).getD j.nextSeq := by
  unfold JournalController.positionSeq
  cases j.staging <;> rfl

theorem exec_checkpointImageFix (hc : s.jrn.checkpoint = some c) (hphase : c.phase = .starting)
    (hidle : s.jrn.writing = false) (hf : s.unit.state ≠ .failed) (hr : s.unit.state ≠ .reset) :
    exec .checkpointImageFix s = .next (settle { s with
      out := Outputs.none
      jrn := { s.jrn with checkpoint := some { c with
        phase := .image
        posSlot := s.jrn.head
        posSeq := (s.jrn.staging.head?.bind (·.seq)).getD s.jrn.nextSeq
        image := imageOf s } }
      media := { s.media with
        arriving := s.media.arriving ++ [⟨.checkpoint, .checkpoint, .write (.metaLine ((imageOf s).line 0)),
          imageLineAt s.nP c.area 0⟩] } }) := by
  refine congrArg (fun u => Host.Outcome.next (settle u)) (perform_of_some ?_)
  simp only [imageFix?, beginHappening_frame, hc, hphase, hidle, decide_true, Bool.not_false, Bool.and_self, if_true,
    positionSeq_eq]
  rw [request_setJrn (s := beginHappening s) hf hr]
  rfl

/-! ### The writes of a checkpoint (R131 to R134) -/

variable {op : InFlight}

theorem exec_checkpointLineComplete (report : WriteReport) (hop : s.Writing op .checkpoint) :
    exec (.checkpointLineComplete op.id report) s =
      .next (settle (checkpointOutcome report (writeOutcome op report (beginHappening s)))) := by
  change Host.Outcome.next (settle (match (beginHappening s).writeInFlight? op.id Requester.isCheckpoint with
    | some op => _
    | none => beginHappening s)) = _
  rw [hop.writeInFlight? rfl]
  dsimp only
  rw [if_pos hop.requester]

/-- A write of an abandoned checkpoint is counted, and reaches no block (R134). -/
theorem exec_checkpointLineComplete_orphan (report : WriteReport) (hop : s.Writing op .orphan) :
    exec (.checkpointLineComplete op.id report) s = .next (settle (writeOutcome op report (beginHappening s))) := by
  change Host.Outcome.next (settle (match (beginHappening s).writeInFlight? op.id Requester.isCheckpoint with
    | some op => _
    | none => beginHappening s)) = _
  rw [hop.writeInFlight? rfl]
  dsimp only
  rw [if_neg (by simp [hop.requester])]

section
variable (hop : s.Writing op .checkpoint) (hc : s.jrn.checkpoint = some c)
include hop hc

/-- An image line stored (R131). -/
theorem exec_checkpointLine_image (hphase : c.phase = .image) : exec (.checkpointLineComplete op.id .stored) s =
    .next (settle (imageLineDone c (writeOutcome op .stored (beginHappening s)))) := by
  have hc : (writeOutcome op .stored (beginHappening s)).jrn.checkpoint = some c := by simpa using hc
  simp only [exec_checkpointLineComplete .stored hop, checkpointOutcome, hc, hphase]

/-- The header stored (R132). -/
theorem exec_checkpointLine_header (hphase : c.phase = .header) : exec (.checkpointLineComplete op.id .stored) s =
    .next (settle (commitCheckpoint c (writeOutcome op .stored (beginHappening s)))) := by
  have hc : (writeOutcome op .stored (beginHappening s)).jrn.checkpoint = some c := by simpa using hc
  simp only [exec_checkpointLineComplete .stored hop, checkpointOutcome, hc, hphase]

/-- A checkpoint's write failed to program (R133). -/
theorem exec_checkpointLine_fails : exec (.checkpointLineComplete op.id .programFail) s =
    .next (settle (failCheckpoint c (writeOutcome op .programFail (beginHappening s)))) := by
  have hc : (writeOutcome op .programFail (beginHappening s)).jrn.checkpoint = some c := by simpa using hc
  simp only [exec_checkpointLineComplete .programFail hop, checkpointOutcome, hc]

end

section
variable (hf : s.unit.state ≠ .failed) (hr : s.unit.state ≠ .reset)
include hf hr

/-- An image line stored asks for the next (R131). -/
theorem imageLineDone_next (hlast : c.linesWritten + 1 < imageLines s.nP) : imageLineDone c s = { s with
    jrn := { s.jrn with checkpoint := some { c with
      linesWritten := c.linesWritten + 1
      imageCheck := Config.imageCheckStep c.imageCheck (c.image.line c.linesWritten) } }
    media := { s.media with
      arriving := s.media.arriving ++ [⟨.checkpoint, .checkpoint,
        .write (.metaLine (c.image.line (c.linesWritten + 1))), imageLineAt s.nP c.area (c.linesWritten + 1)⟩] } } := by
  simp only [imageLineDone, hlast, if_true]
  exact request_setJrn hf hr _ _

/-- The last image line stored asks for the header (R132). -/
theorem imageLineDone_last {check : Word32} (hlast : c.linesWritten + 1 = imageLines s.nP)
    (hcheck : check = Config.imageCheckStep c.imageCheck (c.image.line c.linesWritten)) : imageLineDone c s = { s with
      jrn := { s.jrn with checkpoint := some { c with
        phase := .header, linesWritten := c.linesWritten + 1, imageCheck := check } }
      media := { s.media with
        arriving := s.media.arriving ++ [⟨.checkpoint, .checkpoint,
          .write (.metaLine (.header ⟨c.seq, c.posSeq, c.posSlot, c.clean, check⟩ true)),
          headerLine s.nP c.area⟩] } } := by
  simp only [imageLineDone, hlast, lt_self_iff_false, if_false, ← hcheck]
  exact request_setJrn hf hr _ _

end

/-! ### The commit and the failure (R132, R133, R164, R165) -/

/-- The state in which a checkpoint has committed, before the CLOSING sequence is judged (R132). -/
def State.committed (s : State) (c : Checkpoint) : State :=
  { s with
    time := { s.time with sweeps := 0 }
    jrn := { s.jrn with
      checkpoint := none
      descriptor := some ⟨c.area, c.seq, c.posSeq, c.posSlot, c.clean⟩
      tail := c.posSlot
      full := decide (c.slotsTaken = 2048) }
    link := s.flagged .checkpointDone }

/-- The state in which a checkpoint has failed, before the CLOSING sequence is judged (R133). -/
def State.checkpointless (s : State) : State :=
  { s with jrn := { s.jrn with checkpoint := none }, link := s.flagged .checkpointFailed }

theorem commitCheckpoint_plain (h : ¬(c.clean = true ∧ s.unit.state = .closing)) :
    commitCheckpoint c s = s.committed c :=
  if_neg (by simpa using h)

theorem commitCheckpoint_closing (h : c.clean = true ∧ s.unit.state = .closing) :
    commitCheckpoint c s = closingEnds (s.committed c) :=
  if_pos (by simpa using h)

theorem failCheckpoint_plain (h : ¬(c.clean = true ∧ s.unit.state = .closing)) :
    failCheckpoint c s = s.checkpointless :=
  if_neg (by simpa using h)

theorem failCheckpoint_closing (h : c.clean = true ∧ s.unit.state = .closing) :
    failCheckpoint c s = toShutdown s.checkpointless :=
  if_pos (by simpa using h)

theorem toShutdown_joins (hw : s.jrn.waiters = []) (hroom : s.jrn.staging.length < 16) : toShutdown s = { s with
    unit := { s.unit with stage := some .shutdown }
    jrn := { s.jrn with staging := s.jrn.staging ++ [⟨.unitControl, .shutdown, none⟩] } } :=
  handOver_joins (s := s.setUnit { s.unit with stage := some .shutdown }) _ _ hw hroom

end

/-- Settles O41: the image and its fix; each write's outcome; and what the closing checkpoint's end adds. -/
theorem checkpointsAreFixedWrittenAndCommitted : Obligations.CheckpointsAreFixedWrittenAndCommitted := by
  refine ⟨fun c s hc hphase hidle hr hf image himage => ⟨?_, ?_⟩, fun c op s hc hr hf => ⟨fun hop hphase hlast => ?_,
    fun check hop hphase hlast hcheck => ?_, fun closes committed failed hop hcloses hcommitted hfailed => ?_⟩,
    fun op s hop => ⟨?_, ?_⟩⟩
  · subst himage
    refine ⟨rfl, rfl, fun f r hfr h => ?_, fun f r hfr hrole h => ?_, fun l e line he hl h => ?_⟩
    · rw [imageOf_frame hfr, imageFrame_spare (h.imp_right mem_spareRetiresOf.mpr)]
    · rw [imageOf_frame hfr, imageFrame_kept hrole (mt mem_spareRetiresOf.mp h)]
    · subst hl
      exact ⟨_, imageOf_entry he, imagePoison_set (mem_clearsOf.mpr h) _⟩
  · rw [himage]
    exact exec_checkpointImageFix hc hphase hidle hf hr
  · rw [exec_checkpointLine_image hop hc hphase, writeOutcome_stored, imageLineDone_next]
    exacts [rfl, hf, hr, hlast]
  · rw [exec_checkpointLine_image hop hc hphase, writeOutcome_stored, imageLineDone_last]
    exacts [rfl, hf, hr, hlast, hcheck]
  · subst hcommitted hfailed
    refine ⟨fun hphase hnot => ?_, fun hphase hyes hp => ?_, fun hphase hyes hp hoff => ?_, fun hnot => ?_,
      fun hyes hw hroom => ?_⟩
    · rw [exec_checkpointLine_header hop hc hphase, writeOutcome_stored, commitCheckpoint_plain]
      exacts [rfl, mt hcloses.mpr hnot]
    · rw [exec_checkpointLine_header hop hc hphase, writeOutcome_stored, commitCheckpoint_closing, closingEnds_safe]
      exacts [rfl, hp, rfl, hcloses.mp hyes]
    · rw [exec_checkpointLine_header hop hc hphase, writeOutcome_stored, commitCheckpoint_closing, closingEnds_restarts,
        volatileReset_eq]
      exacts [rfl, hoff, hp, hcloses.mp hyes]
    · rw [exec_checkpointLine_fails hop hc, writeOutcome_programFail, failCheckpoint_plain]
      exacts [rfl, mt hcloses.mpr hnot]
    · rw [exec_checkpointLine_fails hop hc, writeOutcome_programFail, failCheckpoint_closing, toShutdown_joins]
      exacts [rfl, hw, hroom, hcloses.mp hyes]
  · rw [exec_checkpointLineComplete_orphan .stored hop, writeOutcome_stored]
    rfl
  · rw [exec_checkpointLineComplete_orphan .programFail hop, writeOutcome_programFail]
    rfl

end Sys2Proof.Machine
end

section
/-! SUPPORT. The judgement of a slot in replay, and the records applied to the tables (R136, R137, Tables 7.6, 7.7). -/

namespace Sys2Proof.Machine

/-! ### The judgement of a slot (R136, Table 7.6) -/

section
variable {g : GeometryRecord} {x : ReplayWork} {seq : Word32} {r : JournalRecord}

theorem judgeSlot_applies {t : Tables} (hseq : seq = x.expected) (ht : applyRecord g r x.tables = some t) :
    judgeSlot g x (some (seq, r)) = .apply t := by
  simp only [judgeSlot, hseq, ht, if_true]

theorem judgeSlot_contradicts (hseq : seq = x.expected) (ht : applyRecord g r x.tables = none) :
    judgeSlot g x (some (seq, r)) = .contradiction := by
  simp only [judgeSlot, hseq, ht, if_true]

/-- The record applied last, met again, is skipped. -/
theorem judgeSlot_again (hseq : seq ≠ x.expected) {a : AppliedRecord} (ha : x.applied = some a) (hsame : a.seq = seq)
    (hrecord : a.record = r) : judgeSlot g x (some (seq, r)) = .skip := by
  simp only [judgeSlot, if_neg hseq, ha, hsame, hrecord, decide_true, Bool.and_self, if_true]

theorem judgeSlot_stops (hseq : seq ≠ x.expected) (h : ∀ a, x.applied = some a → a.seq ≠ seq ∨ a.record ≠ r) :
    judgeSlot g x (some (seq, r)) = .stop := by
  simp only [judgeSlot, if_neg hseq]
  split
  · rename_i a ha
    rw [if_neg]
    rcases h a ha with h | h <;> simp [h]
  · rfl

end

/-! ### The records (R137, Table 7.7) -/

section
variable {g : GeometryRecord} {t u : Tables}

/-- A MOVE_COMMIT agrees with the tables: its logical frame exists and owns the old frame, the new frame is SPARE, and
its fate is known. -/
def Tables.MoveFits (t : Tables) (g : GeometryRecord) (l new old : Nat) (fate : Fate) : Prop :=
  l < logicalCount g ∧ fate ≠ .invalid ∧ (∃ o, t.frames[old]? = some o ∧ o.role = .mapped ∧ o.owner = some l) ∧
    ∃ n, t.frames[new]? = some n ∧ n.role = .spare

section
variable {l new old : Nat} {fate : Fate}

theorem applyRecord_moveCommit (poison : Flags64) (h : t.MoveFits g l new old fate) :
    applyRecord g (.moveCommit l new old fate poison) t = some { t with
      entries := t.entries.modify l fun e => { e with frame := new, poison := poison }
      frames := (t.frames.modify new fun x => { x with role := .mapped, owner := some l }).modify old fun x =>
        { x with role := if fate = .spare then .spare else .retired, owner := none, wanted := false } } := by
  obtain ⟨hl, hfate, ⟨o, ho, horole, howner⟩, n, hn, hnrole⟩ := h
  simp only [applyRecord, ho, hn, hl, horole, howner, hnrole, hfate, ne_eq, not_false_eq_true, decide_true,
    Bool.and_self, if_true]

theorem applyRecord_moveCommit_contradicts (poison : Flags64) (h : ¬t.MoveFits g l new old fate) :
    applyRecord g (.moveCommit l new old fate poison) t = none := by
  simp only [applyRecord]
  split
  · rename_i o n ho hn
    refine if_neg fun hc => h ?_
    simp only [Bool.and_eq_true, decide_eq_true_eq] at hc
    obtain ⟨⟨⟨⟨hl, horole⟩, howner⟩, hnrole⟩, hfate⟩ := hc
    exact ⟨hl, hfate, ⟨o, ho, horole, howner⟩, n, hn, hnrole⟩
  · rfl

end

theorem applyRecord_spareRetire {f : Nat} {x : FrameRecord} (hx : t.frames[f]? = some x) (hrole : x.role = .spare) :
    applyRecord g (.spareRetire f) t =
      some { t with frames := t.frames.modify f fun x => { x with role := .retired } } := by
  simp only [applyRecord, hx, hrole, if_true]

theorem applyRecord_spareRetire_contradicts {f : Nat} (h : ¬∃ x, t.frames[f]? = some x ∧ x.role = .spare) :
    applyRecord g (.spareRetire f) t = none := by
  simp only [applyRecord]
  split
  · rename_i x hx
    exact if_neg fun hrole => h ⟨x, hx, hrole⟩
  · rfl

theorem applyRecord_fenceSet {v : Nat} (h : 1 ≤ v ∧ v ≤ logicalCount g) :
    applyRecord g (.fenceSet v) t = some { t with fence := v, journaledFence := v } :=
  if_pos (by simpa using h)

theorem applyRecord_fenceSet_contradicts {v : Nat} (h : v = 0 ∨ logicalCount g < v) :
    applyRecord g (.fenceSet v) t = none :=
  if_neg (by simp only [Bool.and_eq_true, decide_eq_true_eq]; omega)

/-! ### What replay never changes (R137) -/

/-- What a frame record keeps through replay: wear count, corrected-errors count and retire-overdue mark. -/
def replayKept (r : FrameRecord) : Nat × Nat × Bool := (r.wear, r.corrected, r.overdue)

/-- An update of one frame record that keeps these keeps them in the table. -/
theorem map_replayKept_modify {f : FrameRecord → FrameRecord} (hf : ∀ r, replayKept (f r) = replayKept r) (i : Nat)
    (frames : List FrameRecord) :
    (frames.modify i f).map replayKept = frames.map replayKept := by
  refine List.ext_getElem? fun k => ?_
  rw [List.getElem?_map, List.getElem?_map, map_getElem?_modify _ hf]

theorem applyRecord_keeps {r : JournalRecord} (h : applyRecord g r t = some u) :
    u.frames.map replayKept = t.frames.map replayKept ∧
    u.entries.length = t.entries.length ∧ u.unclean = t.unclean := by
  cases r with
  | moveCommit l new old fate poison =>
    by_cases hfits : t.MoveFits g l new old fate
    · rw [applyRecord_moveCommit poison hfits] at h
      cases h
      refine ⟨(map_replayKept_modify ?_ old _).trans (map_replayKept_modify ?_ new _), List.length_modify .., rfl⟩ <;>
        exact fun _ => rfl
    · rw [applyRecord_moveCommit_contradicts poison hfits] at h
      cases h
  | spareRetire f =>
    by_cases hspare : ∃ x, t.frames[f]? = some x ∧ x.role = .spare
    · obtain ⟨x, hx, hrole⟩ := hspare
      rw [applyRecord_spareRetire hx hrole] at h
      cases h
      exact ⟨map_replayKept_modify (by exact fun _ => rfl) f _, rfl, rfl⟩
    · rw [applyRecord_spareRetire_contradicts hspare] at h
      cases h
  | poisonSet line =>
    obtain ⟨-, ⟨⟩⟩ := Option.ite_none_right_eq_some.mp h
    exact ⟨rfl, List.length_modify .., rfl⟩
  | poisonClear line =>
    obtain ⟨-, ⟨⟩⟩ := Option.ite_none_right_eq_some.mp h
    exact ⟨rfl, List.length_modify .., rfl⟩
  | fenceSet v =>
    obtain ⟨-, ⟨⟩⟩ := Option.ite_none_right_eq_some.mp h
    exact ⟨rfl, rfl, rfl⟩
  | shutdown =>
    cases h
    exact ⟨rfl, rfl, rfl⟩
  | opened =>
    cases h
    exact ⟨rfl, rfl, rfl⟩
  | unknown kind => cases h

end

end Sys2Proof.Machine
end

section
/-! SUPPORT. The read of a slot in replay, and the end of replay: the ring, the tables, the unit state and the checkpoint
that follow it (R118, R128, R136 to R139, R153, R154). -/

namespace Sys2Proof.Machine

/-! ### The read of a slot (R64, R72 to R74) -/

section
variable {s : State} {op : InFlight} {stored : Stored}

/-- A read where no frame table is loaded: what it delivers, and the health and the Media Port it leaves. -/
theorem readOutcome_leaves {delivered : Option LineData} {health : HealthMonitor} {media : MediaPort}
    (h : s.ReadLeaves op stored delivered health media) :
    (decodeStored stored).delivered = delivered ∧
    readOutcome op (decodeStored stored) s = { s with health := health, media := media } := by
  rcases h with ⟨data, rfl, h0, rfl, rfl⟩ | ⟨data, rfl, h1, h4, hframes, rfl, rfl⟩ | ⟨rfl, hfar, rfl, rfl⟩
  · rw [decodeStored_clean h0]
    exact ⟨rfl, readOutcome_clean op data s⟩
  · rw [decodeStored_corrected h1 h4]
    refine ⟨rfl, ?_⟩
    simp only [readOutcome, raiseCorrected, State.frame?, recordError, bumpHealth, freePlaceOf, State.setMedia_map,
      State.setHealth_map, hframes, List.getElem?_nil]
    rfl
  · rw [decodeStored_uncorrectable hfar]
    exact ⟨rfl, readOutcome_uncorrectable op s⟩

theorem exec_recoveryReadComplete {w : RecoveryWork} (stored : Stored) (hop : s.Reading op .unitControl)
    (hw : s.unit.recovery = some w) : exec (.recoveryReadComplete op.id stored) s =
      .next (settle (recoveryOutcome w (decodeStored stored).metaLine
        (readOutcome op (decodeStored stored) (beginHappening s)))) := by
  have hread : (beginHappening s).readInFlight? op.id (· = .unitControl) = some op := by
    have hfound : (beginHappening s).inFlight? op.id = some op := hop.found
    simp [State.readInFlight?, hfound, hop.kind, hop.requester]
  have hw : (beginHappening s).unit.recovery = some w := hw
  change Host.Outcome.next (settle (match (beginHappening s).readInFlight? op.id (· = .unitControl),
      (beginHappening s).unit.recovery with
    | some op, some w => _
    | _, _ => beginHappening s)) = _
  rw [hread, hw]

end

/-! ### What a slot's judgement leads to (R136) -/

section
variable {s : State} {x : ReplayWork} {w : RecoveryWork} {area : Area} {rest : List Area} {h : CheckpointHeader}
  {g : GeometryRecord} (delivered : Option MetaLine) (hareas : w.candidates = area :: rest)
  (hheader : w.headerOf area = some h) (hg : s.geometryInUse = some g)
include hareas hheader hg

theorem recoverSlot_stop (hj : judgeSlot g x (validSlot delivered) = .stop) :
    recoverSlot x w delivered s = endReplay area h g x false w s := by
  simp only [recoverSlot, hareas, hg, hheader, hj]

theorem recoverSlot_contradiction (hj : judgeSlot g x (validSlot delivered) = .contradiction) :
    recoverSlot x w delivered s = endReplay area h g x true w s := by
  simp only [recoverSlot, hareas, hg, hheader, hj]

/-- A slot skipped or applied asks for the next, until all are judged. -/
theorem recoverSlot_advances {j : Judgement} (hj : judgeSlot g x (validSlot delivered) = j) (hskip : j ≠ .stop)
    (happly : j ≠ .contradiction) : recoverSlot x w delivered s =
      if (x.advance (validSlot delivered) j).judged < 2048 then
        readNext { w with step := .replay (x.advance (validSlot delivered) j) }
          (slotLine g.nP (x.advance (validSlot delivered) j).slot) s
      else endReplay area h g (x.advance (validSlot delivered) j) false w s := by
  cases j with
  | skip => simp only [recoverSlot, hareas, hg, hheader, hj, Config.ringSlots]
  | apply t => simp only [recoverSlot, hareas, hg, hheader, hj, Config.ringSlots]
  | contradiction => exact absurd rfl happly
  | stop => exact absurd rfl hskip

end

/-! ### The end of replay (R118, R128, R138, R139, R153, R154) -/

section
variable {s : State} {w : RecoveryWork} {area : Area} {h : CheckpointHeader} {g : GeometryRecord} {y : ReplayWork}

/-- The other area's header is usable and of a higher sequence (R138). -/
theorem passedOverHigher_eq (w : RecoveryWork) (area : Area) (h : CheckpointHeader) : passedOverHigher w area h =
    match w.headerOf (if area = .a then .b else .a) with
    | some o => decide (1 ≤ (o.seq - h.seq).toNat ∧ (o.seq - h.seq).toNat < 2 ^ 31)
    | none => false := by
  rw [passedOverHigher, area_other_eq]
  cases w.headerOf (if area = .a then .b else .a) with
  | none => rfl
  | some o => simp [seqHigher]

/-- The marking of the recovery scan (R118). -/
theorem scanFrame_eq (retireWear retireErrors : Nat) (r : FrameRecord) : scanFrame retireWear retireErrors r =
    { r with
      wanted := decide (r.role = .mapped ∧ (r.wanted = true ∨ retireWear ≤ r.wear ∨ retireErrors ≤ r.corrected)) } := by
  simp only [scanFrame, Bool.decide_and, Bool.decide_or, Bool.decide_eq_true, Bool.or_assoc]

theorem raise_if (truncated : Bool) (e : Event) (s : State) : (if truncated = true then raise e s else s) =
    s.setLink { s.link with flags := s.link.flags ||| if truncated = true then e.flag else 0#17 } := by
  cases truncated with
  | true => rfl
  | false => simp [State.setLink]

/-- The state at the end of replay, before OPEN is handed over (R138, R153): `clean` says how the unit was shut down,
`jump` whether the sequence numbers jump, and `frames` are the frame records after the scan. -/
def State.replayed (s : State) (h : CheckpointHeader) (y : ReplayWork) (d : Descriptor) (frames : List FrameRecord)
    (truncated clean jump : Bool) : State :=
  { s with
    unit := { s.unit with state := if overdueMapped frames then .writeProtected else .online, recovery := none }
    map := {
      loaded := true, entries := y.tables.entries, frames := frames, pool := buildPool frames
      fence := y.tables.fence, volatileFence := none, latch := overdueMapped frames
      unclean := if clean then y.tables.unclean else satRaise max32 y.tables.unclean }
    jrn := { ringAfterReplay h y jump s.jrn with checkpoint := some (startingCheckpoint d false) }
    link := { s.link with
      flags := s.link.flags ||| (if truncated then Event.recoveryTruncated.flag else 0#17)
        ||| Event.stateChanged.flag } }

theorem endReplay_eq {d : Descriptor} {frames : List FrameRecord} {clean : Bool} (truncated : Bool)
    (hd : s.jrn.descriptor = some d) (hclean : clean = cleanShutdown h y.applied)
    (hframes : frames = y.tables.frames.map (scanFrame g.retireWear s.time.active.retireErrors)) :
    endReplay area h g y truncated w s =
      if clean = true then handOver .unitControl .opened
        (s.replayed h y d frames truncated clean (truncated || passedOverHigher w area h))
      else s.replayed h y d frames truncated clean (truncated || passedOverHigher w area h) := by
  subst hclean hframes
  rw [endReplay, raise_if, startCheckpoint_eq]
  exacts [rfl, hd]

/-- The whole of the end of replay, with nothing staged or waiting before it. -/
theorem endReplay_staged {d : Descriptor} {frames : List FrameRecord} {clean jump : Bool} (truncated : Bool)
    (hd : s.jrn.descriptor = some d) (hstaging : s.jrn.staging = []) (hwaiters : s.jrn.waiters = [])
    (hclean : clean = cleanShutdown h y.applied) (hjump : jump = (truncated || passedOverHigher w area h))
    (hframes : frames = y.tables.frames.map (scanFrame g.retireWear s.time.active.retireErrors)) :
    endReplay area h g y truncated w s = { s.replayed h y d frames truncated clean jump with
      jrn := { (s.replayed h y d frames truncated clean jump).jrn with
        staging := if clean then [⟨.unitControl, .opened, none⟩] else [] } } := by
  subst hjump
  rw [endReplay_eq truncated hd hclean hframes]
  generalize hu : s.replayed h y d frames truncated clean (truncated || passedOverHigher w area h) = u
  have hnone : u.jrn.staging = [] := by rw [← hu]; exact hstaging
  have hfree : u.jrn.waiters = [] := by rw [← hu]; exact hwaiters
  cases clean with
  | true =>
    rw [if_pos rfl, handOver_joins _ _ hfree (by simp [hnone]), hnone]
    rfl
  | false =>
    rw [if_neg (by decide), if_neg (by decide), ← hnone]

end

end Sys2Proof.Machine
end

section
/-! SUPPORT. Replay slot by slot (R136 to R139). -/

namespace Sys2Proof.Machine

/-- The ring as recovery takes it up (R138). -/
theorem ringAfterReplay_eq (h : CheckpointHeader) (y : ReplayWork) (jump : Bool) (j : JournalController) :
    ringAfterReplay h y jump j = { j with
      tail := h.posSlot
      head := match y.applied with
        | some a => (a.slot + 1) % 2048
        | none => h.posSlot
      full := decide (y.span = 2048)
      nextSeq := if jump then h.posSeq + 4096#32 else
        match y.applied with
        | some a => a.seq + 1
        | none => h.posSeq
      fence := y.tables.journaledFence } := by
  unfold ringAfterReplay nextSeqAfterReplay
  cases y.applied <;> rfl

theorem scanFrames_eq (retireWear retireErrors : Nat) (frames : List FrameRecord) :
    frames.map (scanFrame retireWear retireErrors) = frames.map (fun r => { r with
      wanted := decide (r.role = .mapped ∧ (r.wanted = true ∨ retireWear ≤ r.wear ∨ retireErrors ≤ r.corrected)) }) :=
  List.map_congr_left fun r _ => scanFrame_eq retireWear retireErrors r

section
variable {s : State} {op : InFlight} {w : RecoveryWork} {x : ReplayWork} {stored : Stored} {delivered : Option LineData}
  {health : HealthMonitor} {media : MediaPort}

/-- The read of a slot in replay: what it delivers is judged in the state that the read leaves. -/
theorem exec_recoveryReadComplete_replay (hop : s.Reading op .unitControl) (hw : s.unit.recovery = some w)
    (hstep : w.step = .replay x) (hleaves : s.ReadLeaves op stored delivered health media) :
    exec (.recoveryReadComplete op.id stored) s =
      .next (settle (recoverSlot x w (delivered.map Config.metaFormat.read)
        { s with out := Outputs.none, health := health, media := media })) := by
  obtain ⟨hdelivered, hleft⟩ := readOutcome_leaves (s := beginHappening s) hleaves
  rw [exec_recoveryReadComplete stored hop hw, hleft, ReadOutcome.metaLine, hdelivered, recoveryOutcome, hstep]
  rfl

theorem State.ReadLeaves.arriving (h : s.ReadLeaves op stored delivered health media) :
    media.arriving = s.media.arriving := by
  rcases h with ⟨-, -, -, -, rfl⟩ | ⟨-, -, -, -, -, -, rfl⟩ | ⟨-, -, -, rfl⟩ <;> rfl

theorem readNext_eq (hf : s.unit.state ≠ .failed) (hr : s.unit.state ≠ .reset) (w : RecoveryWork) (physical : Nat) :
    readNext w physical s = { s with
      unit := { s.unit with recovery := some w }
      media := { s.media with arriving := s.media.arriving ++ [unitRequest .read physical] } } :=
  request_eq (s := s.setUnit { s.unit with recovery := some w }) hf hr _

end

/-- Settles O46: Table 7.6, Table 7.7 and what the records keep; and then the read of a slot, which goes on or ends
replay by its judgement. -/
theorem replayJudgesAndAppliesRecords : Obligations.ReplayJudgesAndAppliesRecords := by
  refine ⟨fun g x seq r => ⟨rfl, fun hseq t => judgeSlot_applies hseq, judgeSlot_contradicts, ?_, judgeSlot_stops⟩,
    fun g t => ⟨fun l new old fate poison fits hfits => ?_, fun f => ⟨?_, applyRecord_spareRetire_contradicts⟩,
      fun line => ⟨fun hl => ⟨if_pos hl, if_pos hl⟩, fun hl => ?_⟩,
      fun v => ⟨applyRecord_fenceSet, applyRecord_fenceSet_contradicts⟩, rfl, rfl, fun kind => rfl⟩,
    fun g r t u => applyRecord_keeps, ?_⟩
  · rintro hseq ⟨a, ha, hsame, hrecord⟩
    exact judgeSlot_again hseq ha hsame hrecord
  · exact ⟨fun h => applyRecord_moveCommit poison (hfits.mp h),
      fun h => applyRecord_moveCommit_contradicts poison (mt hfits.mpr h)⟩
  · rintro ⟨x, hx, hrole⟩
    exact applyRecord_spareRetire hx hrole
  · exact ⟨if_neg (Nat.not_lt.mpr hl), if_neg (Nat.not_lt.mpr hl)⟩
  · intro op w x area rest h g d stored delivered health media s hop hw hs hstep hareas hheader hg hd hstaging hwaiters
      hleaves slot goes ends hslot hgoes hends
    have hexec := exec_recoveryReadComplete_replay hop hw hstep hleaves
    obtain ⟨v, hv⟩ : ∃ v, v = { s with out := Outputs.none, health := health, media := media } := ⟨_, rfl⟩
    have hg' : v.geometryInUse = some g := by rw [hv]; exact hg
    rw [← hv] at hexec
    have hend : ∀ y truncated, recoverSlot x w (delivered.map Config.metaFormat.read) v =
        endReplay area h g y truncated w v → ends y truncated := by
      intro y truncated heq
      rw [hends]
      rintro clean jump latch frames hclean hjump hframes rfl
      rw [hexec, heq, hv, endReplay_staged (d := d) (clean := clean) (jump := jump) (frames := frames), State.replayed,
        ringAfterReplay_eq]
      exacts [rfl, hd, hstaging, hwaiters, hclean,
        hjump.trans (congrArg (truncated || ·) (passedOverHigher_eq w area h).symm), by rw [hframes, scanFrames_eq]]
    have hgo : ∀ y, recoverSlot x w (delivered.map Config.metaFormat.read) v =
        (if y.judged < 2048 then readNext { w with step := .replay y } (slotLine g.nP y.slot) v
        else endReplay area h g y false w v) → goes y := by
      intro y heq
      rw [hgoes]
      by_cases hy : y.judged < 2048
      · rw [if_pos hy] at heq
        rw [hexec, heq, hv, readNext_eq (by simp [hs]) (by simp [hs]), ← hleaves.arriving]
        exact .inl ⟨hy, rfl⟩
      · rw [if_neg hy] at heq
        exact .inr ⟨Nat.not_lt.mp hy, hend y false heq⟩
    obtain rfl : slot = validSlot (delivered.map Config.metaFormat.read) := hslot
    refine ⟨fun hj => ?_, fun seq r t hr hj => ?_, fun hj => ?_, fun hj => ?_⟩
    · exact hgo _ (recoverSlot_advances _ hareas hheader hg' hj nofun nofun)
    · have hadvance := recoverSlot_advances _ hareas hheader hg' hj nofun nofun
      rw [hr] at hadvance
      exact hgo _ hadvance
    · exact hend x true (recoverSlot_contradiction _ hareas hheader hg' hj)
    · exact hend x false (recoverSlot_stop _ hareas hheader hg' hj)

end Sys2Proof.Machine
end

section
/-! SUPPORT. What leaves Unit Control, the latch and the STATE_CHANGED flag as they are: every operation but the entries to a unit
state, the loading of the tables and the setting of the latch. A lemma `f_steady` follows the definition of `f`; operations that
raise no event and touch neither Unit Control nor the tables are passed over by the lemmas of Laws/Frames.lean. -/

namespace Sys2Proof.Machine

-- Each thread of a parallel elaboration takes 1 GiB of the check's limit.
set_option Elab.async false

/-- From s to t, Unit Control and the write-protect latch are as they were, and STATE_CHANGED stands where it stood. -/
structure Steady (s t : State) : Prop where
  unit : t.unit = s.unit
  latch : t.map.latch = s.map.latch
  raised : s.raised .stateChanged = true → t.raised .stateChanged = true

theorem Steady.refl (s : State) : Steady s s := ⟨rfl, rfl, id⟩

theorem Steady.trans {s t u : State} (h : Steady s t) (k : Steady t u) : Steady s u :=
  ⟨k.unit.trans h.unit, k.latch.trans h.latch, k.raised ∘ h.raised⟩

variable {s t u : State}

/-- An operation that raises no event, and touches neither Unit Control nor the latch. -/
theorem Steady.same (h : Steady s t) (hunit : u.unit = t.unit := by simp)
    (hlatch : u.map.latch = t.map.latch := by simp) (hlink : u.link.flags = t.link.flags := by simp) : Steady s u :=
  h.trans ⟨hunit, hlatch, fun hr => by rw [State.raised, hlink]; exact hr⟩

/-- A follow-up event that raises no event, and touches neither Unit Control nor the tables. -/
theorem Steady.of_frame (h : t.unit = s.unit ∧ t.map = s.map ∧ t.link = s.link) : Steady s t := by
  obtain ⟨hunit, hmap, hlink⟩ := h
  exact (Steady.refl s).same hunit (by rw [hmap]) (by rw [hlink])

/-! ### Flags, responses, health counters (R178, R183, R185) -/

theorem raise_steady {e : Event} (h : Steady s t) : Steady s (raise e t) :=
  h.trans ⟨by simp, by simp, fun hr => by simp [raise_raised, hr]⟩

@[simp] theorem respond_flags_eq (tag : Byte) (status : Status) (results : List Byte) (s : State) :
    (respond tag status results s).link.flags = s.link.flags := rfl

theorem bumpHealth_steady {f : HealthMonitor → HealthMonitor} (h : Steady s t) : Steady s (bumpHealth f t) := h.same

theorem respond_steady {tag : Byte} {status : Status} {results : List Byte} (h : Steady s t) :
    Steady s (respond tag status results t) := h.same

/-! ### Map -/

@[simp] theorem updEntry_latch (logical : Nat) (f : MapEntry → MapEntry) (s : State) :
    (updEntry logical f s).map.latch = s.map.latch := rfl

@[simp] theorem updFrame_latch (physical : Nat) (f : FrameRecord → FrameRecord) (s : State) :
    (updFrame physical f s).map.latch = s.map.latch := rfl

@[simp] theorem setPoison_latch (line : Nat) (v : Bool) (s : State) : (setPoison line v s).map.latch = s.map.latch := by
  simp [setPoison_spec]

@[simp] theorem setMigrationMark_latch (logical : Nat) (v : Bool) (s : State) :
    (setMigrationMark logical v s).map.latch = s.map.latch := rfl

@[simp] theorem setFailMark_latch (logical : Nat) (v : Bool) (s : State) :
    (setFailMark logical v s).map.latch = s.map.latch := rfl

@[simp] theorem removeFailMarks_latch (s : State) : (removeFailMarks s).map.latch = s.map.latch := rfl

@[simp] theorem removeHoldMarks_latch (s : State) : (removeHoldMarks s).map.latch = s.map.latch := rfl

@[simp] theorem joinPool_latch (f : Nat) (s : State) : (joinPool f s).map.latch = s.map.latch := rfl

@[simp] theorem retireFrame_latch (f : Nat) (s : State) : (retireFrame f s).map.latch = s.map.latch := rfl

@[simp] theorem takeTarget_latch (f : Nat) (rest : List Nat) (logical : Nat) (s : State) :
    (takeTarget f rest logical s).map.latch = s.map.latch := rfl

theorem setPoison_steady {line : Nat} {v : Bool} (h : Steady s t) : Steady s (setPoison line v t) := h.same

theorem setMigrationMark_steady {l : Nat} {v : Bool} (h : Steady s t) : Steady s (setMigrationMark l v t) := h.same

theorem setFailMark_steady {l : Nat} {v : Bool} (h : Steady s t) : Steady s (setFailMark l v t) := h.same

theorem updMig_steady {f : Migration → Migration} (h : Steady s t) : Steady s (updMig f t) := h.same

/-! ### Media Port and Absorb Buffer -/

theorem recordError_steady {op : InFlight} {event : MediaEvent} {bits : Nat} (h : Steady s t) :
    Steady s (recordError op event bits t) := h.same

theorem freePlaceOf_steady {id : AttemptId} (h : Steady s t) : Steady s (freePlaceOf id t) := h.same

theorem endDrain_steady {p : Fin 4} (h : Steady s t) : Steady s (endDrain p t) := h.same

/-! ### Host Port -/

theorem endLossWaits_steady {line : Nat} (h : Steady s t) : Steady s (endLossWaits line t) := h.same

theorem arrivalCheck_steady {tag : BitVec 5} (h : Steady s t) (hu : arrivalCheck tag t = some u) : Steady s u := by
  unfold arrivalCheck at hu
  split at hu
  · cases hu
    exact h
  split at hu
  · cases hu
    exact raise_steady h
  split at hu <;> cases hu
  exact h.same

theorem hostReadArrives_steady {tag : BitVec 5} {line : Nat} (h : Steady s t) :
    Steady s (hostReadArrives tag line t) := by
  unfold hostReadArrives
  split
  · exact arrivalCheck_steady h ‹_›
  split <;> exact h.same

theorem hostWriteArrives_steady {tag : BitVec 5} {line : Nat} {mask : Flags64} {data : LineData} (h : Steady s t) :
    Steady s (hostWriteArrives tag line mask data t) := by
  unfold hostWriteArrives
  split
  · exact arrivalCheck_steady h ‹_›
  split
  · exact h.same
  split <;> exact h.same

theorem hostPersistArrives_steady {tag : BitVec 5} {line : Nat} (h : Steady s t) :
    Steady s (hostPersistArrives tag line t) := by
  unfold hostPersistArrives
  split
  · exact arrivalCheck_steady h ‹_›
  · exact h.same

theorem hostUnknownArrives_steady (h : Steady s t) : Steady s (hostUnknownArrives t) := by
  unfold hostUnknownArrives
  split
  · exact h
  · exact raise_steady h

/-! ### Journal Controller -/

theorem waitWith_steady {c : Creator} {r : JournalRecord} (h : Steady s t) : Steady s (waitWith c r t) := by
  unfold waitWith
  split
  · exact h.same
  · dsimp only
    split
    · exact raise_steady h.same
    · exact h.same

theorem handOver_steady {c : Creator} {r : JournalRecord} (h : Steady s t) : Steady s (handOver c r t) := by
  unfold handOver
  split
  · exact h.same
  · exact waitWith_steady h

/-! ### The migration queue, retire causes and the wear sweep -/

theorem setLastResult_steady {l : Nat} {reason : Reason} {result : MigResult} (h : Steady s t) :
    Steady s (setLastResult l reason result t) := h.same

theorem joinRetire_steady {r : MigRequest} (h : Steady s t) : Steady s (joinRetire r t) := h.same

theorem evictNewest_steady (h : Steady s t) : Steady s (evictNewest t) := by
  unfold evictNewest
  split
  · dsimp only
    split
    · exact raise_steady h.same
    · exact h.same
  · exact h

theorem handleRetire_steady {l : Nat} {reason : Reason} (h : Steady s t) : Steady s (handleRetire l reason t) := by
  unfold handleRetire
  dsimp only
  split
  · exact h
  split
  · split <;> exact h.same
  split
  · exact h
  split
  · exact h.same
  split
  · exact h.same
  split
  · exact h
  · exact joinRetire_steady (evictNewest_steady h)

theorem retireRequest_steady {l : Nat} {reason : Reason} (h : Steady s t) : Steady s (retireRequest l reason t) := by
  unfold retireRequest
  split
  · exact handleRetire_steady h
  · exact h

theorem retireCause_steady {f : Nat} {reason : Reason} (h : Steady s t) : Steady s (retireCause f reason t) := by
  unfold retireCause
  split
  · split
    · dsimp only
      split
      · exact retireRequest_steady h.same
      · exact h.same
    · exact h
  · exact h

theorem raiseWear_steady {f : Nat} (h : Steady s t) : Steady s (raiseWear f t) := h.same (hlatch := rfl)

theorem checkWear_steady {f : Nat} (h : Steady s t) : Steady s (checkWear f t) := by
  unfold checkWear
  split
  · split
    · exact retireCause_steady h
    · exact h
  · exact h

theorem raiseCorrected_steady {f : Nat} (h : Steady s t) : Steady s (raiseCorrected f t) := by
  unfold raiseCorrected
  split
  · split
    · dsimp only
      split
      · exact retireCause_steady h.same
      · exact h.same
    · exact h
  · exact h

theorem readOutcome_steady {α : Type} {op : InFlight} {o : ReadOutcome α} (h : Steady s t) :
    Steady s (readOutcome op o t) := by
  cases o with
  | clean d => exact freePlaceOf_steady h
  | corrected k d => exact raiseCorrected_steady (recordError_steady (bumpHealth_steady (freePlaceOf_steady h)))
  | uncorrectable => exact recordError_steady (bumpHealth_steady (freePlaceOf_steady h))

theorem writeOutcome_steady {op : InFlight} {report : WriteReport} (h : Steady s t) :
    Steady s (writeOutcome op report t) := by
  have hworn : Steady s (raiseWear (frameOf op.request.physical) (freePlaceOf op.id t)) := raiseWear_steady (freePlaceOf_steady h)
  cases report with
  | stored => exact hworn
  | programFail => exact recordError_steady (bumpHealth_steady hworn)

theorem offerFrame_steady {f : Nat} (h : Steady s t) : Steady s (offerFrame t f) := by
  unfold offerFrame
  split
  · split
    · split
      · exact retireRequest_steady h
      · exact h
    · exact h
  · exact h

theorem requeue_steady (h : Steady s t) : Steady s (requeue t) :=
  List.foldlRecOn _ _ h fun _ hu _ _ => offerFrame_steady hu

theorem levelCheck_steady (h : Steady s t) : Steady s (levelCheck t) := h.same

theorem wearSweep_steady (h : Steady s t) : Steady s (wearSweep t) := levelCheck_steady (requeue_steady h)

/-! ### Migration Engine -/

theorem engineIdle_steady (h : Steady s t) : Steady s (engineIdle t) := h.same

theorem noSpare_steady {m : Migration} (h : Steady s t) : Steady s (noSpare m t) :=
  engineIdle_steady (setLastResult_steady (raise_steady (bumpHealth_steady (setMigrationMark_steady h))))

theorem endCopy_steady {m : Migration} (h : Steady s t) : Steady s (endCopy m t) := handOver_steady h.same

theorem copyLineDone_steady {m : Migration} (h : Steady s t) : Steady s (copyLineDone m t) := by
  unfold copyLineDone
  split
  · exact h.same
  · exact endCopy_steady h

theorem failTarget_steady {m : Migration} (h : Steady s t) : Steady s (failTarget m t) := by
  unfold failTarget
  split
  · exact handOver_steady h.same
  · exact h

theorem returnTarget_steady {m : Migration} (h : Steady s t) : Steady s (returnTarget m t) := by
  unfold returnTarget
  split
  · split
    · exact h.same
    · exact h
  · exact h

theorem completeAbort_steady {m : Migration} (h : Steady s t) : Steady s (completeAbort m t) := by
  refine engineIdle_steady (setLastResult_steady (raise_steady (bumpHealth_steady ?_)))
  have hmark : Steady s (setMigrationMark m.logical false (returnTarget m t)) :=
    setMigrationMark_steady (returnTarget_steady h)
  split
  · exact hmark
  · exact setFailMark_steady hmark

theorem copyReadOutcome_steady {m : Migration} {o : ReadOutcome LineData} (h : Steady s t) :
    Steady s (copyReadOutcome m o t) := by
  unfold copyReadOutcome
  split
  · split
    · exact retireCause_steady (completeAbort_steady h)
    · exact h
  split
  · exact h.same
  · exact retireCause_steady h.same

theorem lateRecord_steady {m : Migration} {i : Nat} (h : Steady s t) : Steady s (lateRecord m i t) :=
  handOver_steady h.same

theorem lateReadOutcome_steady {m : Migration} {c : LateCopy} {o : ReadOutcome LineData} (h : Steady s t) :
    Steady s (lateReadOutcome m c o t) := by
  unfold lateReadOutcome
  split
  · exact h.same
  · exact retireCause_steady (lateRecord_steady h.same)

theorem lateWriteFail_steady {m : Migration} {c : LateCopy} (h : Steady s t) : Steady s (lateWriteFail m c t) := by
  unfold lateWriteFail
  split
  · exact updMig_steady (lateRecord_steady h)
  · exact h.same

theorem lateRecordDurable_steady {i : Nat} (h : Steady s t) : Steady s (lateRecordDurable i t) := by
  unfold lateRecordDurable
  split
  · exact h.same
  · exact h

theorem releaseSource_steady {m : Migration} (h : Steady s t) : Steady s (releaseSource m t) := by
  unfold releaseSource
  dsimp only
  split <;> exact h.same

theorem checkNewFrame_steady {f : Nat} (h : Steady s t) : Steady s (checkNewFrame f t) := by
  unfold checkNewFrame
  split
  · split
    · exact retireCause_steady h
    split
    · exact retireCause_steady h
    · exact h
  · exact h

theorem switchMigration_steady {m : Migration} (h : Steady s t) : Steady s (switchMigration m t) := by
  have hswitched : Steady s (raise .migrationDone (switchTables m t)) := raise_steady (releaseSource_steady h.same)
  exact checkNewFrame_steady (engineIdle_steady (setLastResult_steady (bumpHealth_steady hswitched)))

/-! ### What follows drains and records -/

theorem drainToWrite_steady {d : Drain} {line : LineData} (h : Steady s t) : Steady s (drainToWrite d line t) := h.same

theorem fillOutcome_steady {d : Drain} {o : ReadOutcome LineData} (h : Steady s t) : Steady s (fillOutcome d o t) := by
  have hcause : Steady s (retireCause (frameOf d.physical) .retireError t) := retireCause_steady h
  unfold fillOutcome
  split
  · exact h.same
  · dsimp only
    split
    · exact hcause.same
    · exact handOver_steady hcause.same

theorem endOrClear_steady {d : Drain} (h : Steady s t) : Steady s (endOrClear d t) := by
  unfold endOrClear
  split
  · dsimp only
    split
    · exact endDrain_steady (handOver_steady (setPoison_steady h))
    · exact handOver_steady h.same
  · exact h.same

theorem drainDone_steady {d : Drain} (h : Steady s t) : Steady s (drainDone d t) :=
  checkWear_steady (endOrClear_steady h.same)

theorem drainFailOnce_steady {d : Drain} (h : Steady s t) : Steady s (drainFailOnce d t) := by
  unfold drainFailOnce
  dsimp only
  split <;> exact h.same

theorem countLost_steady (h : Steady s t) : Steady s (countLost t) := raise_steady h.same

theorem drainLoses_steady {d : Drain} (h : Steady s t) : Steady s (drainLoses d t) := by
  unfold drainLoses
  dsimp only
  split
  · exact countLost_steady h.same
  · exact handOver_steady h.same

theorem markLate_steady {line : Nat} (h : Steady s t) : Steady s (markLate line t) := h.same

theorem drainFails_steady {d : Drain} (h : Steady s t) : Steady s (drainFails d t) := by
  have hlate : Steady s (markLate d.line (retireCause (frameOf d.physical) .retireProgram t)) :=
    markLate_steady (retireCause_steady h)
  unfold drainFails
  dsimp only
  split
  · exact drainLoses_steady hlate
  · exact drainFailOnce_steady hlate

theorem drainRecordDurable_steady {d : Drain} (h : Steady s t) : Steady s (drainRecordDurable d t) := by
  unfold drainRecordDurable
  dsimp only
  split
  · exact drainToWrite_steady (raise_steady (setPoison_steady h))
  · exact endLossWaits_steady (countLost_steady h.same)
  · exact h.same

/-! ### Time base -/

theorem commitSettingsNow_steady (h : Steady s t) : Steady s (commitSettingsNow t) := by
  rcases commitSettingsNow_cases t with ⟨-, he⟩ | ⟨-, he⟩ | ⟨-, -, he⟩ <;> rw [he]
  · exact h
  · exact raise_steady h
  · exact raise_steady h.same

theorem evaluateHealth_steady (h : Steady s t) : Steady s (evaluateHealth t) := by
  unfold evaluateHealth
  dsimp only
  split
  · exact raise_steady h.same
  · exact h.same

theorem ringTrigger_steady (h : Steady s t) : Steady s (ringTrigger t) := h.same

theorem countSweep_steady (h : Steady s t) : Steady s (countSweep t) := h.same

theorem boundaryWork_steady (h : Steady s t) : Steady s (boundaryWork t) := by
  have hcommit : Steady s (boundaryCommit t) := by
    unfold boundaryCommit
    dsimp only
    split
    · exact h.same
    · exact (commitSettingsNow_steady h).same
  have hsweep : Steady s (boundarySweep (boundaryCommit t)) := by
    unfold boundarySweep
    split
    · exact countSweep_steady (evaluateHealth_steady (wearSweep_steady hcommit))
    · exact hcommit
  exact ringTrigger_steady hsweep

end Sys2Proof.Machine
end

section
/-! SUPPORT. What a follow-up event can do to the unit state: nothing, but that the latch, set in ONLINE, takes the unit to
WRITE_PROTECTED (R19, R142), and that the stages of DRAIN_LOCK and CLOSING go on (R160, R164, R165). -/

namespace Sys2Proof.Machine

set_option Elab.async false

/-- From s to t, the unit state is kept, or is WRITE_PROTECTED after ONLINE with STATE_CHANGED raised; the items of Unit
Control stay where they belong, and the latch out of ONLINE. -/
structure Follows (s t : State) : Prop where
  state : t.unit.state = s.unit.state ∨ (s.unit.state = .online ∧ t.unit.state = .writeProtected)
  unitSound : s.UnitSound → t.UnitSound
  latchSound : s.LatchSound → t.LatchSound
  raised : s.raised .stateChanged = true → t.raised .stateChanged = true
  changed : t.unit.state ≠ s.unit.state → t.raised .stateChanged = true

theorem Follows.refl (s : State) : Follows s s := ⟨.inl rfl, id, id, id, fun h => absurd rfl h⟩

theorem Follows.trans {s t u : State} (h : Follows s t) (k : Follows t u) : Follows s u where
  state := by
    rcases k.state with hu | ⟨ht, hu⟩
    · rw [hu]
      exact h.state
    · rcases h.state with hs | ⟨-, hs⟩
      · exact .inr ⟨hs ▸ ht, hu⟩
      · rw [hs] at ht
        cases ht
  unitSound := k.unitSound ∘ h.unitSound
  latchSound := k.latchSound ∘ h.latchSound
  raised := k.raised ∘ h.raised
  changed hu := by
    by_cases ht : t.unit.state = s.unit.state
    · exact k.changed (ht ▸ hu)
    · exact k.raised (h.changed ht)

/-- Soundness of Unit Control speaks of Unit Control alone. -/
theorem unitSound_of_unit_eq {s t : State} (hunit : t.unit = s.unit) (h : s.UnitSound) : t.UnitSound := by
  obtain ⟨horigin, hcause, hstage, hlock, hpending, hformat, hrecovery, hgeometry, hstanding⟩ := h
  constructor <;> rw [hunit] <;> assumption

theorem latchSound_of_eq {s t : State} (hstate : t.unit.state = s.unit.state) (hlatch : t.map.latch = s.map.latch)
    (h : s.LatchSound) : t.LatchSound := by
  rw [State.LatchSound, hstate, hlatch]
  exact h

variable {s t u : State}

theorem latchSound_of_not_online (h : t.unit.state ≠ .online) : t.LatchSound := fun _ => h

theorem Steady.follows (h : Steady s t) : Follows s t where
  state := .inl (by rw [h.unit])
  unitSound := unitSound_of_unit_eq h.unit
  latchSound := latchSound_of_eq (by rw [h.unit]) h.latch
  raised := h.raised
  changed hne := absurd (by rw [h.unit]) hne

theorem Follows.steady (h : Follows s t) (k : Steady t u) : Follows s u := h.trans k.follows

/-- An update of Unit Control that leaves the unit state as it is. -/
theorem setUnit_follows {x : UnitControl} (hstate : x.state = s.unit.state)
    (hsound : s.UnitSound → (s.setUnit x).UnitSound) : Follows s (s.setUnit x) where
  state := .inl hstate
  unitSound := hsound
  latchSound := latchSound_of_eq hstate rfl
  raised := id
  changed hne := absurd hstate hne

/-! ### The write-protect latch (R19, R142) -/

theorem refuseWaiting_steady (h : Steady s t) : Steady s (refuseWaiting t) := h.same

/-- ONLINE and WRITE_PROTECTED have no item of Unit Control of their own. -/
theorem protect_unitSound (hs : s.unit.state = .online) (h : s.UnitSound) :
    (enterState .writeProtected s).UnitSound := by
  obtain ⟨horigin, hcause, hstage, hlock, hpending, hformat, hrecovery, hgeometry, hstanding⟩ := h
  constructor <;> simp_all [enterState_unit]

theorem setLatch_follows : Follows s (setLatch s) := by
  by_cases hs : s.unit.state = .online
  · have hprotect : Follows s (enterState .writeProtected (s.setMap { s.map with latch := true })) :=
      { state := .inr ⟨hs, rfl⟩
        unitSound := fun h => protect_unitSound (s := s.setMap _) hs (unitSound_of_unit_eq (s := s) rfl h)
        latchSound := fun _ => latchSound_of_not_online nofun
        raised := fun _ => enterState_raised _ _
        changed := fun _ => enterState_raised _ _ }
    rw [setLatch_online hs]
    exact hprotect.steady (refuseWaiting_steady (.refl _))
  · rw [setLatch_notOnline hs]
    exact ⟨.inl rfl, unitSound_of_unit_eq rfl, fun _ => latchSound_of_not_online hs, id, fun hne => absurd rfl hne⟩

theorem spareExhausted_follows {m : Migration} : Follows s (spareExhausted m s) := by
  have hmarked : Steady s (setFailMark m.logical false (updFrame m.source (fun r => { r with overdue := true }) s)) :=
    (Steady.refl s).same
  exact (hmarked.follows.trans setLatch_follows).steady
    (engineIdle_steady (setLastResult_steady (setMigrationMark_steady (raise_steady (.refl _)))))

theorem askTarget_follows {m : Migration} : Follows s (askTarget m s) := by
  unfold askTarget
  split
  · exact ((Steady.refl s).same).follows
  split
  · exact spareExhausted_follows
  · exact (noSpare_steady (.refl s)).follows

theorem copyWriteOutcome_follows {m : Migration} {report : WriteReport} : Follows s (copyWriteOutcome m report s) := by
  unfold copyWriteOutcome
  split
  · split
    · exact .refl s
    · exact (copyLineDone_steady (.refl s)).follows
  · dsimp only
    split
    · exact (failTarget_steady (.refl s)).follows
    · exact (failTarget_steady (.refl s)).follows.trans askTarget_follows

/-! ### The stages of DRAIN_LOCK and CLOSING (R160, R164, R165) -/

theorem setStage_follows {st : Stage} (hs : s.unit.state = .drainLock ∨ s.unit.state = .closing)
    (hst : s.unit.state = .drainLock → st ≠ .checkpoint) :
    Follows s (s.setUnit { s.unit with stage := some st }) := by
  refine setUnit_follows rfl fun h => ?_
  obtain ⟨horigin, hcause, hstage, hlock, hpending, hformat, hrecovery, hgeometry, hstanding⟩ := h
  constructor <;> simp_all

theorem toShutdown_follows (hs : s.unit.state = .drainLock ∨ s.unit.state = .closing) : Follows s (toShutdown s) :=
  (setStage_follows (st := .shutdown) hs fun _ => nofun).steady (handOver_steady (.refl _))

theorem drainLockEmptyingEnd?_follows (h : drainLockEmptyingEnd? s = some t) : Follows s t := by
  unfold drainLockEmptyingEnd? at h
  split at h <;> cases h
  rename_i hcond
  simp only [Bool.and_eq_true, decide_eq_true_eq] at hcond
  exact toShutdown_follows (.inl hcond.1.1)

theorem closingEmptyingEnd?_follows (h : closingEmptyingEnd? s = some t) : Follows s t := by
  unfold closingEmptyingEnd? at h
  split at h <;> cases h
  rename_i hcond
  simp only [Bool.and_eq_true, decide_eq_true_eq] at hcond
  exact setStage_follows (.inr hcond.1.1) fun hlock => by simp [hcond.1.1] at hlock

/-! ### The rest of a happening -/

theorem abortComplete?_steady (h : abortComplete? s = some t) : Steady s t := by
  unfold abortComplete? at h
  split at h
  · split at h <;> cases h
    exact completeAbort_steady (.refl s)
  · cases h

theorem migrationSwitch?_steady (h : migrationSwitch? s = some t) : Steady s t := by
  unfold migrationSwitch? at h
  split at h
  · split at h <;> cases h
    exact switchMigration_steady (.refl s)
  · cases h

theorem flushDone?_steady (h : flushDone? s = some t) : Steady s t := by
  unfold flushDone? at h
  split at h
  · cases h
  split at h
  · split at h <;> cases h
    exact raise_steady (Steady.refl s).same
  · cases h

theorem migrationTake?_steady (h : migrationTake? s = some t) : Steady s t := by
  unfold migrationTake? at h
  split at h
  · split at h <;> cases h
    exact (Steady.refl s).same
  · cases h

theorem lateCopyStart?_steady (h : lateCopyStart? s = some t) : Steady s t := by
  unfold lateCopyStart? at h
  split at h
  · split at h
    · split at h <;> cases h
      exact (Steady.refl s).same
    · cases h
  · cases h

theorem quiesceEnd?_follows (h : quiesceEnd? s = some t) : Follows s t := by
  unfold quiesceEnd? at h
  split at h
  · split at h <;> cases h
    exact askTarget_follows
  · cases h

/-- Each of the sixteen follow-up events. -/
theorem followUp_follows {e : State → Option State} (he : e ∈ followUps) (h : e s = some t) : Follows s t := by
  fin_cases he
  · exact (abortComplete?_steady h).follows
  · exact (migrationSwitch?_steady h).follows
  · exact (Steady.of_frame (by simp [creatorJoin?_frame s h])).follows
  · exact (flushDone?_steady h).follows
  · exact (Steady.of_frame (by simp [persistDone?_frame s h])).follows
  · exact (Steady.of_frame (by simp [waitQueueTake?_frame s h])).follows
  · exact (Steady.of_frame (by simp [persistTake?_frame s h])).follows
  · exact (migrationTake?_steady h).follows
  · exact quiesceEnd?_follows h
  · exact (lateCopyStart?_steady h).follows
  · exact drainLockEmptyingEnd?_follows h
  · exact closingEmptyingEnd?_follows h
  · exact (Steady.of_frame (by simp [closingCheckpointStart?_frame s h])).follows
  · exact (Steady.of_frame (by simp [imageFix?_frame s h])).follows
  · exact (Steady.of_frame (by simp [recordIssue?_frame s h])).follows
  · exact (Steady.of_frame (by simp [drainIssue?_frame s h])).follows

theorem nextFollowUp_follows (h : nextFollowUp s = some t) : Follows s t := by
  obtain ⟨e, he, h⟩ := List.exists_of_findSome?_eq_some h
  exact followUp_follows he h

theorem grantAll_steady (h : Steady s t) : Steady s (grantAll t) := h.same

theorem settle_follows (s : State) : Follows s (settle s) :=
  settle_induct (Follows s) (fun _ _ hu hv => hu.trans (nextFollowUp_follows hv))
    (fun _ hu => hu.steady (grantAll_steady (.refl _))) s (.refl s)

theorem beginHappening_steady (s : State) : Steady s (beginHappening s) := (Steady.refl s).same

end Sys2Proof.Machine
end

section
/-! SUPPORT. The entries to the unit states: from which states each is made, to which it leads, and that it keeps Unit
Control sound, the latch out of ONLINE, and raises STATE_CHANGED (Table 8.2, R141 to R143, R153, R156 to R168). -/

namespace Sys2Proof.Machine

set_option Elab.async false

/-- From s to t a unit state is entered: one of `sources` is left for one of `targets`. -/
structure Enters (sources targets : List UnitState) (s t : State) : Prop where
  unitSound : s.unit.state ∈ sources → s.UnitSound → t.UnitSound
  latchSound : s.LatchSound → t.LatchSound
  raised : t.raised .stateChanged = true
  state : t.unit.state ∈ targets

variable {s t u : State} {sources targets : List UnitState}

/-- What goes before an entry and keeps the unit, the latch and the flag. -/
theorem Steady.enters (h : Steady s t) (k : Enters sources targets t u) : Enters sources targets s u where
  unitSound hs hsound := k.unitSound (by rw [h.unit]; exact hs) (unitSound_of_unit_eq h.unit hsound)
  latchSound hs := k.latchSound (latchSound_of_eq (by rw [h.unit]) h.latch hs)
  raised := k.raised
  state := k.state

/-- What comes after an entry and keeps the unit, the latch and the flag. -/
theorem Enters.steady (h : Enters sources targets s t) (k : Steady t u) : Enters sources targets s u where
  unitSound hs hsound := unitSound_of_unit_eq k.unit (h.unitSound hs hsound)
  latchSound hs := latchSound_of_eq (by rw [k.unit]) k.latch (h.latchSound hs)
  raised := k.raised h.raised
  state := by
    rw [k.unit]
    exact h.state

/-- An entry after an entry. -/
theorem Enters.trans {middle : List UnitState} (h : Enters sources middle s t) (k : Enters middle targets t u) :
    Enters sources targets s u where
  unitSound hs hsound := k.unitSound h.state (h.unitSound hs hsound)
  latchSound hs := k.latchSound (h.latchSound hs)
  raised := k.raised
  state := k.state

/-- Fewer sources and more targets. -/
theorem Enters.mono {sources' targets' : List UnitState} (h : Enters sources targets s t)
    (hsources : ∀ a ∈ sources', a ∈ sources := by simp) (htargets : ∀ b ∈ targets, b ∈ targets' := by simp) :
    Enters sources' targets' s t :=
  ⟨fun hs => h.unitSound (hsources _ hs), h.latchSound, h.raised, htargets _ h.state⟩

/-- An entry from some of its sources. -/
theorem Enters.leaving {sources' : List UnitState} (h : Enters sources targets s t)
    (hsources : ∀ a ∈ sources', a ∈ sources := by simp) : Enters sources' targets s t := h.mono hsources fun _ => id

/-! ### FAILED (R143) -/

theorem enterFailed_enters (cause : FailCause) (hf : s.unit.state ≠ .failed) :
    Enters [.reset, .unformatted, .formatting, .recovering, .online, .writeProtected, .closing, .drainLock, .safe]
      [.failed] s (enterFailed cause s) := by
  rw [enterFailed_eq cause hf]
  exact {
    unitSound := fun hs h => by
      obtain ⟨horigin, hcause, hstage, hlock, hpending, hformat, hrecovery, hgeometry, hstanding⟩ := h
      constructor <;> simp_all
    latchSound := fun _ => latchSound_of_not_online nofun
    raised := enterState_raised .failed s
    state := List.mem_singleton_self _ }

/-! ### The resets, and SAFE for want of tables (R144, R157, R162) -/

theorem hardReset_unitSound : (hardReset s).UnitSound := by
  constructor <;> simp [hardReset, State.reset]

theorem abandonToSafe_unit (s : State) : (abandonToSafe s).unit = { s.unit with
    state := .safe, safeOrigin := some .drainLock, standing := none, geometry := none, format := none,
    recovery := none } := by
  simp [abandonToSafe, enterState_unit]

theorem abandonToSafe_enters : Enters [.recovering, .formatting] [.safe] s (abandonToSafe s) where
  unitSound hs h := by
    obtain ⟨horigin, hcause, hstage, hlock, hpending, hformat, hrecovery, hgeometry, hstanding⟩ := h
    simp only [List.mem_cons, List.not_mem_nil, or_false] at hs
    rcases hs with hs | hs <;> constructor <;> simp_all [abandonToSafe_unit]
  latchSound _ := latchSound_of_not_online (by simp [abandonToSafe_unit])
  raised := enterState_raised _ _
  state := by simp [abandonToSafe_unit]

/-- RECOVERING is entered with recovery at its first step. -/
theorem enterRecovering_enters : Enters [.reset, .safe] [.recovering] s
    (enterState .recovering (s.setUnit { s.unit with recovery := some recoveryStart, safeOrigin := none })) where
  unitSound hs h := by
    obtain ⟨horigin, hcause, hstage, hlock, hpending, hformat, hrecovery, hgeometry, hstanding⟩ := h
    simp only [List.mem_cons, List.not_mem_nil, or_false] at hs
    rcases hs with hs | hs <;> constructor <;> simp_all [enterState_unit]
  latchSound _ := latchSound_of_not_online nofun
  raised := enterState_raised _ _
  state := List.mem_singleton_self _

theorem request_steady {r : MediaRequest} (h : Steady s t) : Steady s (request r t) := h.same

theorem startRecovery_enters : Enters [.reset, .safe] [.recovering, .safe] s (startRecovery s) := by
  unfold startRecovery
  dsimp only
  split
  · exact enterRecovering_enters.trans (abandonToSafe_enters.mono)
  · exact (enterRecovering_enters.steady (request_steady (.refl _))).mono

theorem volatileReset_enters : Enters [.unformatted, .safe, .failed, .closing] [.recovering, .safe] s (volatileReset s) := by
  have hreset : Steady (hardReset s) ((hardReset s).setLink { (hardReset s).link with response := s.link.response }) :=
    (Steady.refl _).same
  have henters := hreset.enters startRecovery_enters
  exact {
    unitSound := fun _ _ => henters.unitSound (by simp [hardReset_spec]) hardReset_unitSound
    latchSound := fun _ => henters.latchSound (latchSound_of_not_online (by simp [hardReset_spec]))
    raised := henters.raised
    state := henters.state }

/-- Without the warning the volatile reset enters RECOVERING (R156, R157). -/
theorem volatileReset_recovers (hoff : s.unit.holdUp = false) : (volatileReset s).unit.state = .recovering := by
  rw [volatileReset_eq hoff]

/-! ### SAFE, and out of it (R161, R164, R167, R168) -/

theorem leaveSafe_enters : Enters [.safe] [.online, .writeProtected] s (leaveSafe s) where
  unitSound hs h := by
    obtain ⟨horigin, hcause, hstage, hlock, hpending, hformat, hrecovery, hgeometry, hstanding⟩ := h
    simp only [List.mem_singleton] at hs
    cases hlatch : s.map.latch <;> constructor <;> simp_all [leaveSafe, enterState_unit]
  latchSound _ hl := by
    have hlatch : s.map.latch = true := by simpa using hl
    simp [leaveSafe_state, hlatch]
  raised := enterState_raised _ _
  state := by
    rw [leaveSafe_state]
    split <;> simp

theorem leaveSafeDrainLock_enters :
    Enters [.safe] [.online, .writeProtected, .recovering, .safe] s (leaveSafeDrainLock s) := by
  unfold leaveSafeDrainLock
  split
  · exact leaveSafe_enters.mono
  · exact startRecovery_enters.mono

theorem abandonCheckpoint_steady (h : Steady s t) : Steady s (abandonCheckpoint t) := h.same

/-- SAFE is entered at the end of a sequence, before it is left again (R161, R164). -/
theorem enterSafeState_enters (origin : SafeOrigin) : Enters [.drainLock, .closing] [.safe] s
    (enterState .safe (s.setUnit { s.unit with safeOrigin := some origin, stage := none, restartPending := false })) where
  unitSound hs h := by
    obtain ⟨horigin, hcause, hstage, hlock, hpending, hformat, hrecovery, hgeometry, hstanding⟩ := h
    simp only [List.mem_cons, List.not_mem_nil, or_false] at hs
    rcases hs with hs | hs <;> constructor <;> simp_all [enterState_unit]
  latchSound _ := latchSound_of_not_online nofun
  raised := enterState_raised _ _
  state := List.mem_singleton_self _

theorem enterSafe_enters (origin : SafeOrigin) :
    Enters [.drainLock, .closing] [.online, .writeProtected, .recovering, .safe] s (enterSafe origin s) := by
  have hsafe := (abandonCheckpoint_steady (.refl s)).enters (enterSafeState_enters origin)
  unfold enterSafe
  dsimp only
  split
  · exact hsafe.trans leaveSafeDrainLock_enters
  · exact hsafe.mono

theorem enterSafe_prepareOff_enters : Enters [.drainLock, .closing] [.safe] s (enterSafe .prepareOff s) :=
  (abandonCheckpoint_steady (.refl s)).enters (enterSafeState_enters .prepareOff)

theorem closingEnds_enters : Enters [.closing] [.recovering, .safe] s (closingEnds s) := by
  unfold closingEnds
  split
  · exact volatileReset_enters.mono
  · exact enterSafe_prepareOff_enters.mono

/-! ### DRAIN_LOCK and CLOSING (R156, R159, R163) -/

theorem drainLockStage_ne_checkpoint (s : State) : s.drainLockStage ≠ .checkpoint := by
  unfold State.drainLockStage
  split <;> simp

/-- DRAIN_LOCK is entered with its stage. -/
theorem enterDrainLockState_enters : Enters [.online, .writeProtected, .closing] [.drainLock] s
    (enterState .drainLock (s.setUnit { s.unit with stage := some s.drainLockStage, restartPending := false })) where
  unitSound hs h := by
    have hst := drainLockStage_ne_checkpoint s
    obtain ⟨horigin, hcause, hstage, hlock, hpending, hformat, hrecovery, hgeometry, hstanding⟩ := h
    simp only [List.mem_cons, List.not_mem_nil, or_false] at hs
    rcases hs with hs | hs | hs <;> constructor <;> simp_all [enterState_unit]
  latchSound _ := latchSound_of_not_online nofun
  raised := enterState_raised _ _
  state := List.mem_singleton_self _

theorem enterDrainLock_enters : Enters [.online, .writeProtected, .closing] [.drainLock] s (enterDrainLock s) :=
  enterDrainLockState_enters.steady (refuseWaiting_steady (Steady.refl _).same)

/-- CLOSING is entered in stage EMPTYING. -/
theorem enterClosingState_enters (restart : Bool) : Enters [.online, .writeProtected] [.closing] s
    (enterState .closing (s.setUnit { s.unit with stage := some .emptying, restartPending := restart })) where
  unitSound hs h := by
    obtain ⟨horigin, hcause, hstage, hlock, hpending, hformat, hrecovery, hgeometry, hstanding⟩ := h
    simp only [List.mem_cons, List.not_mem_nil, or_false] at hs
    rcases hs with hs | hs <;> constructor <;> simp_all [enterState_unit]
  latchSound _ := latchSound_of_not_online nofun
  raised := enterState_raised _ _
  state := List.mem_singleton_self _

theorem enterClosing_enters (restart : Bool) :
    Enters [.online, .writeProtected] [.closing] s (enterClosing restart s) :=
  (enterClosingState_enters restart).steady (refuseWaiting_steady (Steady.refl _).same)

/-! ### FORMAT (R146, R148) -/

theorem startFormat_enters (spares retireWear : Nat) :
    Enters [.unformatted, .failed, .safe] [.formatting] s (startFormat spares retireWear s) := by
  have hentered : ∀ w, Enters [.unformatted, .failed, .safe] [.formatting] s
      (enterState .formatting ((formatClear s).setUnit { (formatClear s).unit with format := some w })) := fun w => {
    unitSound := fun _ _ => by constructor <;> simp [formatClear, enterState_unit]
    latchSound := fun _ => latchSound_of_not_online nofun
    raised := enterState_raised _ _
    state := List.mem_singleton_self _ }
  exact (hentered _).steady (request_steady (.refl _))

/-- The fresh tables of FORMAT hold no retire-overdue frame (R10, R148). -/
theorem overdueMapped_freshFrames (g : GeometryRecord) : overdueMapped (freshFrames g) = false := by
  rw [overdueMapped, List.any_eq_false]
  intro r hr
  simp only [freshFrames, List.mem_append, List.mem_replicate, List.mem_map] at hr
  rcases hr with (⟨-, rfl⟩ | ⟨f, -, rfl⟩) | ⟨-, rfl⟩ <;> simp [freshRecord]

theorem completeFormat_unit (w : FormatWork) (s : State) : (completeFormat w s).unit = { s.unit with
    state := .online, geometry := some (w.record (strapsNP s.unit.sizeStraps)), standing := some .inUse,
    format := none } := by
  simp [completeFormat, enterState_unit]

theorem completeFormat_latch (w : FormatWork) (s : State) : (completeFormat w s).map.latch = false := by
  simp [completeFormat, loadTables_map, freshTables, overdueMapped_freshFrames]

theorem completeFormat_enters (w : FormatWork) : Enters [.formatting] [.online] s (completeFormat w s) where
  unitSound hs h := by
    obtain ⟨horigin, hcause, hstage, hlock, hpending, hformat, hrecovery, hgeometry, hstanding⟩ := h
    simp only [List.mem_singleton] at hs
    constructor <;> simp_all [completeFormat_unit]
  latchSound _ hl := by simp [completeFormat_latch] at hl
  raised := (handOver_steady (.refl _)).raised (enterState_raised _ _)
  state := by simp [completeFormat_unit]

/-! ### Recovery (R150, R153) -/

theorem endUnformatted_enters {standing : Standing} {found : Option GeometryRecord}
    (hfound : found.isSome ↔ some standing = some .inUse ∨ some standing = some .mismatch) :
    Enters [.recovering] [.unformatted] s (endUnformatted standing found s) where
  unitSound hs h := by
    obtain ⟨horigin, hcause, hstage, hlock, hpending, hformat, hrecovery, hgeometry, hstanding⟩ := h
    simp only [List.mem_singleton] at hs
    constructor <;> simp_all [endUnformatted, enterState_unit]
  latchSound _ := latchSound_of_not_online nofun
  raised := enterState_raised _ _
  state := List.mem_singleton_self _

/-- The tables are loaded with their latch, and the unit is WRITE_PROTECTED or ONLINE by it (R19, R153). -/
theorem enterLoaded_enters (x : Tables) : Enters [.recovering] [.online, .writeProtected] s
    (enterState (if (loadTables x s).map.latch then .writeProtected else .online)
      ((loadTables x s).setUnit { (loadTables x s).unit with recovery := none })) := by
  generalize hu : loadTables x s = u
  have hunit : u.unit = s.unit := by rw [← hu]; rfl
  exact {
    unitSound := fun hs h => by
      obtain ⟨horigin, hcause, hstage, hlock, hpending, hformat, hrecovery, hgeometry, hstanding⟩ := h
      simp only [List.mem_singleton] at hs
      cases hlatch : u.map.latch <;> constructor <;> simp_all [enterState_unit]
    latchSound := fun _ hl => by
      have hlatch : u.map.latch = true := by simpa using hl
      simp [enterState_unit, hlatch]
    raised := enterState_raised _ _
    state := by cases hlatch : u.map.latch <;> simp [enterState_unit] }

theorem startCheckpoint_steady {clean : Bool} (h : Steady s t) : Steady s (startCheckpoint clean t) := h.same

theorem setJrn_steady {x : JournalController} (h : Steady s t) : Steady s (t.setJrn x) := h.same

theorem endReplay_enters (area : Area) (h : CheckpointHeader) (g : GeometryRecord) (x : ReplayWork) (truncated : Bool)
    (w : RecoveryWork) : Enters [.recovering] [.online, .writeProtected] s (endReplay area h g x truncated w s) := by
  have hbefore : ∀ b : Bool, Steady s (if b = true then raise .recoveryTruncated s else s) := fun b => by
    split
    · exact raise_steady (.refl s)
    · exact .refl s
  have hloaded := fun y x => (setJrn_steady (x := y) (hbefore truncated)).enters (enterLoaded_enters x)
  unfold endReplay
  dsimp only
  split
  · exact (hloaded _ _).steady (handOver_steady (startCheckpoint_steady (.refl _)))
  · exact (hloaded _ _).steady (startCheckpoint_steady (.refl _))

end Sys2Proof.Machine
end

section
/-! SUPPORT. That every command passes from unit state to unit state as mayPass tables it, keeps Unit Control sound and the
latch out of ONLINE, and raises STATE_CHANGED (Table 8.2, R19, R141 to R143). -/

namespace Sys2Proof.Machine

set_option Elab.async false

/-- A transition of mayPass, or one out of RESET at a deadline, which no attempt reaches where the Media Port is empty. -/
def Tabled (c : Instr) (a b : UnitState) : Prop :=
  mayPass c a b = true ∨ (a = .reset ∧ ∃ place, c = .attemptTimeout place)

/-- After ONLINE is entered the latch can take the unit to WRITE_PROTECTED in the same happening (R142). -/
theorem Tabled.protected {c : Instr} {a : UnitState} (h : Tabled c a .online) : Tabled c a .writeProtected := by
  refine h.imp_left fun hmay => ?_
  cases a <;> simp_all [mayPass]

/-- What a command does to Unit Control, from s to t. -/
structure UnitStep (c : Instr) (s t : State) : Prop where
  unitSound : s.UnitSound → t.UnitSound
  latchSound : s.LatchSound → t.LatchSound
  changed : t.unit.state ≠ s.unit.state → t.unit.state ≠ .reset → t.raised .stateChanged = true
  tabled : s.UnitSound → t.unit.state ≠ s.unit.state → Tabled c s.unit.state t.unit.state

variable {s t u : State} {c : Instr}

theorem Follows.unitStep (h : Follows s t) : UnitStep c s t where
  unitSound := h.unitSound
  latchSound := h.latchSound
  changed hne _ := h.changed hne
  tabled _ hne := by
    rcases h.state with hsame | ⟨hs, ht⟩
    · exact absurd hsame hne
    · rw [hs, ht]
      exact .inl rfl

theorem Steady.unitStep (h : Steady s t) : UnitStep c s t := h.follows.unitStep

theorem UnitStep.refl (s : State) : UnitStep c s s := (Steady.refl s).unitStep

theorem UnitStep.follows (h : UnitStep c s t) (k : Follows t u) : UnitStep c s u where
  unitSound := k.unitSound ∘ h.unitSound
  latchSound := k.latchSound ∘ h.latchSound
  changed hne hreset := by
    by_cases hut : u.unit.state = t.unit.state
    · exact k.raised (h.changed (hut ▸ hne) (hut ▸ hreset))
    · exact k.changed hut
  tabled hsound hne := by
    rcases k.state with hu | ⟨ht, hu⟩
    · rw [hu] at hne ⊢
      exact h.tabled hsound hne
    · rw [hu]
      by_cases hts : t.unit.state = s.unit.state
      · rw [← hts, ht]
        exact .inl rfl
      · exact Tabled.protected (ht ▸ h.tabled hsound hts)

theorem UnitStep.steady (h : UnitStep c s t) (k : Steady t u) : UnitStep c s u := h.follows k.follows

/-- An update that leaves the unit state and the latch as they are, before what a command does. -/
theorem UnitStep.after (k : UnitStep c t u) (hsound : s.UnitSound → t.UnitSound)
    (hstate : t.unit.state = s.unit.state := by rfl) (hlatch : t.map.latch = s.map.latch := by rfl) :
    UnitStep c s u where
  unitSound hs := k.unitSound (hsound hs)
  latchSound hs := k.latchSound (latchSound_of_eq hstate hlatch hs)
  changed hne := k.changed (hstate ▸ hne)
  tabled hs hne := hstate ▸ k.tabled (hsound hs) (hstate ▸ hne)

theorem Steady.step (h : Steady s t) (k : UnitStep c t u) : UnitStep c s u :=
  k.after (unitSound_of_unit_eq h.unit) (by rw [h.unit]) h.latch

/-- An update that leaves the unit state and the latch as they are, before an entry. -/
theorem Enters.after {sources targets : List UnitState} (k : Enters sources targets t u)
    (hsound : s.UnitSound → t.UnitSound) (hstate : t.unit.state = s.unit.state := by rfl)
    (hlatch : t.map.latch = s.map.latch := by rfl) : Enters sources targets s u where
  unitSound hs h := k.unitSound (by rw [hstate]; exact hs) (hsound h)
  latchSound hs := k.latchSound (latchSound_of_eq hstate hlatch hs)
  raised := k.raised
  state := k.state

/-- A command that makes an entry, each of whose transitions is tabled. -/
theorem Enters.unitStep {sources targets : List UnitState} (h : Enters sources targets s t)
    (hs : s.UnitSound → s.unit.state ∈ sources)
    (htabled : ∀ a ∈ sources, ∀ b ∈ targets, a = b ∨ Tabled c a b := by simp [Tabled, mayPass]) : UnitStep c s t where
  unitSound hsound := h.unitSound (hs hsound) hsound
  latchSound := h.latchSound
  changed _ _ := h.raised
  tabled hsound hne := (htabled _ (hs hsound) _ h.state).resolve_left fun heq => hne heq.symm

/-- The one state an outcome `next` names. -/
theorem UnitStep.of_next {v : State} (h : (Host.Outcome.next v : Host.Outcome State Fault Refusal) = .next t)
    (hv : UnitStep c s v) : UnitStep c s t := by
  cases h
  exact hv

/-! ### Happenings -/

/-- A happening steps as the command's own effect does. -/
theorem happening_unitStep {body : State → State} (hbody : ∀ u, UnitStep c u (body u)) :
    UnitStep c s (happening body s) := ((beginHappening_steady s).step (hbody _)).follows (settle_follows _)

theorem happening_unitStep_of_steady {body : State → State} (hbody : ∀ u, Steady u (body u)) :
    UnitStep c s (happening body s) := happening_unitStep fun u => (hbody u).unitStep

/-- A follow-up event commanded by name (log entry 3). -/
theorem performed_unitStep {e : State → Option State} (he : e ∈ followUps) :
    UnitStep c s (happening (perform e) s) := by
  refine happening_unitStep fun u => ?_
  unfold perform
  cases h : e u with
  | none => exact .refl u
  | some v => exact (followUp_follows he h).unitStep

/-! ### Pins and time -/

theorem hardReset_unitStep : UnitStep .resetAssert s (hardReset s) where
  unitSound _ := hardReset_unitSound
  latchSound _ := latchSound_of_not_online nofun
  changed _ hreset := absurd rfl hreset
  tabled _ _ := .inl (by cases h : s.unit.state <;> simp [hardReset_spec, mayPass])

theorem assertReset_unitStep : UnitStep .resetAssert s (assertReset s) := by
  unfold assertReset
  split
  · exact .refl s
  · exact hardReset_unitStep

theorem releaseReset_unitStep {sizeStraps : BitVec 6} {addrStraps : BitVec 2} :
    UnitStep (.resetRelease sizeStraps addrStraps) s (releaseReset sizeStraps addrStraps s) := by
  unfold releaseReset
  split
  · rename_i hs
    exact Enters.unitStep (sources := [.reset]) (Enters.after startRecovery_enters.leaving fun h => { h with })
      (fun _ => by simp [hs])
  · exact .refl s

theorem warningAsserted_unitStep : UnitStep .holdUpAssert s (warningAsserted s) := by
  unfold warningAsserted
  split
  · exact enterDrainLock_enters.unitStep (fun _ => by simp [*])
  · exact enterDrainLock_enters.unitStep (fun _ => by simp [*])
  · exact enterDrainLock_enters.unitStep (fun _ => by simp [*])
  · exact abandonToSafe_enters.unitStep (fun _ => by simp [*])
  · exact abandonToSafe_enters.unitStep (fun _ => by simp [*])
  all_goals exact .refl s

/-- The level of the warning is no item of a unit state. -/
theorem setHoldUp_follows {v : Bool} : Follows s (s.setUnit { s.unit with holdUp := v }) :=
  setUnit_follows rfl fun h => { h with }

theorem assertHoldUp_unitStep : UnitStep .holdUpAssert s (assertHoldUp s) := by
  unfold assertHoldUp
  split
  · exact .refl s
  · exact warningAsserted_unitStep.after fun h => { h with }

theorem deassertHoldUp_unitStep : UnitStep .holdUpDeassert s (deassertHoldUp s) := by
  unfold deassertHoldUp
  split
  · dsimp only
    split
    · rename_i hsafe
      obtain ⟨hstate, -⟩ := Bool.and_eq_true_iff.mp hsafe
      exact Enters.unitStep (sources := [.safe]) (Enters.after leaveSafeDrainLock_enters fun h => { h with })
        (fun _ => List.mem_singleton.mpr (of_decide_eq_true hstate))
    · exact setHoldUp_follows.unitStep
  · exact .refl s

/-- A second timeout enters FAILED, once (R77, R143). -/
theorem secondTimeout_unitStep {place : Fin 8} {op : InFlight} :
    UnitStep (.attemptTimeout place) s (secondTimeout op s) := by
  have hfault : Steady s (raise .mediaFault (recordError op .secondTimeout 0 s)) :=
    raise_steady (recordError_steady (.refl s))
  refine hfault.step ?_
  by_cases hf : s.unit.state = .failed
  · rw [secondTimeout, enterFailed, if_pos (by simpa using hf)]
    exact .refl _
  · refine (enterFailed_enters .secondTimeout (by simpa using hf)).unitStep (fun _ => ?_)
    cases hs : s.unit.state <;> simp_all

theorem attemptTimesOut_unitStep {place : Fin 8} {op : InFlight} :
    UnitStep (.attemptTimeout place) s (attemptTimesOut op s) := by
  unfold attemptTimesOut
  split
  · exact secondTimeout_unitStep
  · exact ((Steady.refl s).same).unitStep

theorem execAttemptTimeout_unitStep {place : Fin 8} (h : execAttemptTimeout place s = .next t) :
    UnitStep (.attemptTimeout place) s t := by
  refine .of_next h (happening_unitStep fun u => ?_)
  split
  · exact attemptTimesOut_unitStep
  · exact .refl u

theorem execSweepBoundary_unitStep (h : execSweepBoundary s = .next t) : UnitStep .sweepBoundary s t := by
  refine .of_next h (happening_unitStep_of_steady fun u => ?_)
  split
  · exact boundaryWork_steady (.refl u)
  · exact .refl u

/-! ### The medium's completions -/

theorem returnRead_steady {tag : BitVec 5} {line : Nat} {o : ReadOutcome LineData} (h : Steady s t) :
    Steady s (returnRead tag line o t) := h.same

theorem hostReadOutcome_steady {op : InFlight} {o : ReadOutcome LineData} : Steady s (hostReadOutcome op o s) := by
  have hreport : Steady s
      (match o with
        | .uncorrectable => retireCause (frameOf op.request.physical) .retireError (readOutcome op o s)
        | _ => readOutcome op o s) := by
    split
    · exact retireCause_steady (readOutcome_steady (.refl s))
    · exact readOutcome_steady (.refl s)
  unfold hostReadOutcome
  dsimp only
  split
  · split
    · exact returnRead_steady hreport
    · exact hreport
  · exact hreport

theorem execHostReadReturn_unitStep {id : AttemptId} {stored : Stored} (h : execHostReadReturn id stored s = .next t) :
    UnitStep c s t := by
  refine .of_next h (happening_unitStep_of_steady fun u => ?_)
  split
  · exact hostReadOutcome_steady
  · exact .refl u

theorem execFillReadComplete_unitStep {id : AttemptId} {stored : Stored}
    (h : execFillReadComplete id stored s = .next t) : UnitStep c s t := by
  refine .of_next h (happening_unitStep_of_steady fun u => ?_)
  dsimp only
  split
  · split
    · exact fillOutcome_steady (readOutcome_steady (.refl u))
    · exact readOutcome_steady (.refl u)
  · exact .refl u

theorem execDrainWriteComplete_unitStep {id : AttemptId} {report : WriteReport}
    (h : execDrainWriteComplete id report s = .next t) : UnitStep c s t := by
  refine .of_next h (happening_unitStep_of_steady fun u => ?_)
  dsimp only
  split
  · split
    · exact drainDone_steady (writeOutcome_steady (.refl u))
    · exact drainFails_steady (writeOutcome_steady (.refl u))
    · exact writeOutcome_steady (.refl u)
  · exact .refl u

theorem engineRead_steady {o : ReadOutcome LineData} (h : Steady s t) : Steady s (engineRead o t) := by
  unfold engineRead
  split
  · split
    · exact copyReadOutcome_steady h
    · exact lateReadOutcome_steady h
    · exact h
  · exact h

theorem engineWrite_follows {report : WriteReport} : Follows s (engineWrite report s) := by
  unfold engineWrite
  split
  · split
    · exact copyWriteOutcome_follows
    · exact (updMig_steady (.refl s)).follows
    · exact (lateWriteFail_steady (.refl s)).follows
    · exact .refl s
  · exact .refl s

theorem execCopyReadComplete_unitStep {id : AttemptId} {stored : Stored}
    (h : execCopyReadComplete id stored s = .next t) : UnitStep c s t := by
  refine .of_next h (happening_unitStep_of_steady fun u => ?_)
  dsimp only
  split
  · exact engineRead_steady (readOutcome_steady (.refl u))
  · exact .refl u

theorem execCopyWriteComplete_unitStep {id : AttemptId} {report : WriteReport}
    (h : execCopyWriteComplete id report s = .next t) : UnitStep c s t := by
  refine .of_next h (happening_unitStep fun u => ?_)
  split
  · exact (writeOutcome_steady (.refl u)).step engineWrite_follows.unitStep
  · exact .refl u

/-! ### Journal and checkpoint writes -/

theorem shutdownDurable_unitStep {id : AttemptId} {report : WriteReport} :
    UnitStep (.recordWriteComplete id report) s (shutdownDurable s) := by
  unfold shutdownDurable
  split
  · rename_i hs
    exact ((enterSafe_enters .drainLock).leaving (sources' := [.drainLock])).unitStep (fun _ => by simp [hs])
  split
  · rename_i hs
    exact closingEnds_enters.unitStep (fun _ => by simp [hs])
  · exact .refl s

theorem recordEffect_unitStep {id : AttemptId} {report : WriteReport} {k : Creator} {r : JournalRecord} :
    UnitStep (.recordWriteComplete id report) s (recordEffect k r s) := by
  unfold recordEffect
  split
  · exact (updMig_steady (.refl s)).unitStep
  · split
    · exact (drainRecordDurable_steady (.refl s)).unitStep
    · exact .refl s
  · exact (lateRecordDurable_steady (.refl s)).unitStep
  · exact (raise_steady (.refl s)).unitStep
  · exact shutdownDurable_unitStep
  · exact .refl s

theorem recordOutcome_unitStep {id : AttemptId} {report report' : WriteReport} :
    UnitStep (.recordWriteComplete id report) s (recordOutcome report' s) := by
  unfold recordOutcome
  dsimp only
  split
  · exact (setJrn_steady (setJrn_steady (.refl s))).step recordEffect_unitStep
  · exact (setJrn_steady (.refl s)).unitStep

theorem execRecordWriteComplete_unitStep {id : AttemptId} {report : WriteReport}
    (h : execRecordWriteComplete id report s = .next t) : UnitStep (.recordWriteComplete id report) s t := by
  refine .of_next h (happening_unitStep fun u => ?_)
  split
  · exact (writeOutcome_steady (.refl u)).step recordOutcome_unitStep
  · exact .refl u

theorem commitCheckpoint_unitStep {id : AttemptId} {report : WriteReport} {k : Checkpoint} :
    UnitStep (.checkpointLineComplete id report) s (commitCheckpoint k s) := by
  unfold commitCheckpoint
  dsimp only
  split
  · rename_i hs
    simp only [Bool.and_eq_true, decide_eq_true_eq] at hs
    exact (raise_steady (Steady.refl s).same).step (closingEnds_enters.unitStep (fun _ => List.mem_singleton.mpr hs.2))
  · exact (raise_steady (Steady.refl s).same).unitStep

theorem failCheckpoint_follows {k : Checkpoint} : Follows s (failCheckpoint k s) := by
  have hfailed : Steady s (raise .checkpointFailed (s.setJrn { s.jrn with checkpoint := none })) :=
    raise_steady (setJrn_steady (.refl s))
  unfold failCheckpoint
  dsimp only
  split
  · rename_i hs
    simp only [Bool.and_eq_true, decide_eq_true_eq] at hs
    exact hfailed.follows.trans (toShutdown_follows (.inr hs.2))
  · exact hfailed.follows

theorem checkpointOutcome_unitStep {id : AttemptId} {report report' : WriteReport} :
    UnitStep (.checkpointLineComplete id report) s (checkpointOutcome report' s) := by
  unfold checkpointOutcome
  split
  · split
    · exact failCheckpoint_follows.unitStep
    · exact ((Steady.refl s).same).unitStep
    · exact commitCheckpoint_unitStep
    · exact .refl s
  · exact .refl s

theorem execCheckpointLineComplete_unitStep {id : AttemptId} {report : WriteReport}
    (h : execCheckpointLineComplete id report s = .next t) : UnitStep (.checkpointLineComplete id report) s t := by
  refine .of_next h (happening_unitStep fun u => ?_)
  dsimp only
  split
  · split
    · exact (writeOutcome_steady (.refl u)).step checkpointOutcome_unitStep
    · exact (writeOutcome_steady (.refl u)).unitStep
  · exact .refl u

/-! ### Unit Control's operations -/

theorem setFormat_follows {w : FormatWork} (hw : s.unit.format.isSome) :
    Follows s (s.setUnit { s.unit with format := some w }) :=
  setUnit_follows rfl fun h => { h with format := ⟨fun _ => h.format.mp hw, fun _ => rfl⟩ }

theorem requestFormatStep_follows {w : FormatWork} (hw : s.unit.format.isSome) : Follows s (requestFormatStep w s) :=
  (setFormat_follows hw).steady (request_steady (.refl _))

theorem formatReadArrives_follows {id : AttemptId} {stored : Stored} : Follows s (formatReadArrives id stored s) := by
  unfold formatReadArrives
  split
  · rename_i hw
    exact (readOutcome_steady (.refl s)).follows.trans (requestFormatStep_follows (by simp [hw]))
  · exact .refl s

theorem formatWriteOutcome_unitStep {id : AttemptId} {completion : FormatCompletion} {w : FormatWork}
    {report : WriteReport} (hw : s.unit.format.isSome) :
    UnitStep (.formatOperationComplete id completion) s (formatWriteOutcome w report s) := by
  have hformatting : s.UnitSound → s.unit.state = .formatting := fun h => h.format.mp hw
  unfold formatWriteOutcome
  split
  · by_cases hf : s.unit.state = .failed
    · rw [enterFailed, if_pos hf]
      exact .refl s
    · exact ((enterFailed_enters _ hf).leaving (sources' := [.formatting])).unitStep
        (fun h => by simp [hformatting h])
  · dsimp only
    split
    · exact (requestFormatStep_follows hw).unitStep
    · exact (completeFormat_enters w).unitStep (fun h => by simp [hformatting h])

theorem formatWriteArrives_unitStep {id id' : AttemptId} {completion : FormatCompletion} {report : WriteReport} :
    UnitStep (.formatOperationComplete id completion) s (formatWriteArrives id' report s) := by
  unfold formatWriteArrives
  split
  · rename_i hw
    exact (writeOutcome_steady (.refl s)).step (formatWriteOutcome_unitStep (by simp [hw]))
  · exact .refl s

theorem execFormatOperationComplete_unitStep {id : AttemptId} {completion : FormatCompletion}
    (h : execFormatOperationComplete id completion s = .next t) :
    UnitStep (.formatOperationComplete id completion) s t := by
  refine .of_next h (happening_unitStep fun u => ?_)
  split
  · exact formatReadArrives_follows.unitStep
  · exact formatWriteArrives_unitStep

theorem setRecovery_follows {w : RecoveryWork} (hw : s.unit.recovery.isSome) :
    Follows s (s.setUnit { s.unit with recovery := some w }) :=
  setUnit_follows rfl fun h => { h with recovery := ⟨fun _ => h.recovery.mp hw, fun _ => rfl⟩ }

theorem readNext_follows {w : RecoveryWork} {p : Nat} (hw : s.unit.recovery.isSome) : Follows s (readNext w p s) :=
  (setRecovery_follows hw).steady (request_steady (.refl _))

section
variable {id : AttemptId} {stored : Stored} {w : RecoveryWork} {delivered : Option MetaLine}

theorem recovering_of_recovery (hw : s.unit.recovery.isSome) (h : s.UnitSound) : s.unit.state ∈ [UnitState.recovering] := by
  simp [h.recovery.mp hw]

theorem recoverGeometry_unitStep (hw : s.unit.recovery.isSome) :
    UnitStep (.recoveryReadComplete id stored) s (recoverGeometry w delivered s) := by
  unfold recoverGeometry
  split
  · exact (endUnformatted_enters (by simp)).unitStep (recovering_of_recovery hw)
  split
  · exact (endUnformatted_enters (by simp)).unitStep (recovering_of_recovery hw)
  · rename_i g _ _
    have hinUse : Follows s (s.setUnit { s.unit with standing := some .inUse, geometry := some g }) :=
      setUnit_follows rfl fun h => { h with
        geometry := by simp
        resetStanding := fun hreset => by simp [h.recovery.mp hw] at hreset }
    exact (hinUse.trans (readNext_follows hw)).unitStep

theorem readImage_unitStep (hw : s.unit.recovery.isSome) :
    UnitStep (.recoveryReadComplete id stored) s (readImage w s) := by
  unfold readImage
  split
  · exact (readNext_follows hw).unitStep
  · by_cases hf : s.unit.state = .failed
    · rw [enterFailed, if_pos hf]
      exact .refl s
    · exact ((enterFailed_enters _ hf).leaving (sources' := [.recovering])).unitStep (recovering_of_recovery hw)

theorem acceptArea_follows {area : Area} {x : CheckpointHeader} {y : Tables} (hw : s.unit.recovery.isSome) :
    Follows s (acceptArea area x y w s) :=
  (setJrn_steady (.refl s)).follows.trans (readNext_follows (s := s.setJrn _) hw)

theorem judgeImage_unitStep {area : Area} {x : CheckpointHeader} {g : GeometryRecord} {i : ImageWork}
    (hw : s.unit.recovery.isSome) : UnitStep (.recoveryReadComplete id stored) s (judgeImage area x g i w s) := by
  unfold judgeImage
  split
  · exact readImage_unitStep hw
  · dsimp only
    split
    · exact (acceptArea_follows hw).unitStep
    · exact readImage_unitStep hw

theorem recoverImageLine_unitStep {x : ImageWork} (hw : s.unit.recovery.isSome) :
    UnitStep (.recoveryReadComplete id stored) s (recoverImageLine x w delivered s) := by
  unfold recoverImageLine
  split
  · dsimp only
    split
    · exact (readNext_follows hw).unitStep
    · split
      · exact judgeImage_unitStep hw
      · exact readImage_unitStep hw
  · exact readImage_unitStep hw

theorem recoverSlot_unitStep {x : ReplayWork} (hw : s.unit.recovery.isSome) :
    UnitStep (.recoveryReadComplete id stored) s (recoverSlot x w delivered s) := by
  have hends : ∀ area h g y truncated,
      UnitStep (.recoveryReadComplete id stored) s (endReplay area h g y truncated w s) := fun area h g y truncated =>
    (endReplay_enters area h g y truncated w).unitStep (recovering_of_recovery hw)
  unfold recoverSlot
  split
  · split
    · dsimp only
      split
      · exact hends _ _ _ _ _
      · exact hends _ _ _ _ _
      · split
        · exact (readNext_follows hw).unitStep
        · exact hends _ _ _ _ _
    · exact .refl s
  · exact .refl s

theorem recoveryOutcome_unitStep (hw : s.unit.recovery.isSome) :
    UnitStep (.recoveryReadComplete id stored) s (recoveryOutcome w delivered s) := by
  unfold recoveryOutcome
  split
  · exact recoverGeometry_unitStep hw
  · exact (readNext_follows hw).unitStep
  · exact readImage_unitStep hw
  · exact recoverImageLine_unitStep hw
  · exact recoverSlot_unitStep hw

theorem execRecoveryReadComplete_unitStep (h : execRecoveryReadComplete id stored s = .next t) :
    UnitStep (.recoveryReadComplete id stored) s t := by
  refine .of_next h (happening_unitStep fun u => ?_)
  dsimp only
  split
  · rename_i hw
    exact (readOutcome_steady (.refl u)).step (recoveryOutcome_unitStep (by simp [hw]))
  · exact .refl u

end

/-! ### The management link -/

theorem judge_unitStep {tag : Byte} {params : List Byte} {len : Nat} {permitted argsOk : State → Bool}
    {run : State → State} (hrun : permitted s = true → UnitStep c s (run s)) :
    UnitStep c s (judge tag params len permitted argsOk run s) := by
  rcases judge_cases tag params len permitted argsOk run s with
    ⟨-, he⟩ | ⟨-, he⟩ | ⟨-, -, he⟩ | ⟨-, -, -, he⟩ | ⟨-, hp, -, he⟩ <;> rw [he]
  · exact .refl s
  · exact (respond_steady (.refl s)).unitStep
  · exact (respond_steady (.refl s)).unitStep
  · exact (respond_steady (.refl s)).unitStep
  · exact hrun hp

/-- A request executed in a happening. -/
theorem judged_unitStep {tag : Byte} {params : List Byte} {len : Nat} {permitted argsOk : State → Bool}
    {run : State → State} (hrun : ∀ u, permitted u = true → UnitStep c u (run u)) :
    UnitStep c s (happening (judge tag params len permitted argsOk run) s) :=
  happening_unitStep fun u => judge_unitStep (hrun u)

theorem judged_unitStep_of_steady {tag : Byte} {params : List Byte} {len : Nat} {permitted argsOk : State → Bool}
    {run : State → State} (hrun : ∀ u, Steady u (run u)) :
    UnitStep c s (happening (judge tag params len permitted argsOk run) s) :=
  judged_unitStep fun u _ => (hrun u).unitStep

end Sys2Proof.Machine
end

section
/-! SUPPORT. Every command, and every step: Unit Control, the latch and the unit state. -/

namespace Sys2Proof.Machine

set_option Elab.async false

variable {s t : State}

/-! ### The management link -/

theorem judge_steady {tag : Byte} {params : List Byte} {len : Nat} {permitted argsOk : State → Bool}
    {run : State → State} (hrun : Steady s (run s)) : Steady s (judge tag params len permitted argsOk run s) := by
  rcases judge_cases tag params len permitted argsOk run s with
    ⟨-, he⟩ | ⟨-, he⟩ | ⟨-, -, he⟩ | ⟨-, -, -, he⟩ | ⟨-, -, -, he⟩ <;> rw [he]
  exacts [.refl s, respond_steady (.refl s), respond_steady (.refl s), respond_steady (.refl s), hrun]

/-- A request whose happening is its execution alone (log entry 1). -/
theorem judgeBegun_unitStep {c : Instr} {tag : Byte} {params : List Byte} {len : Nat}
    {permitted argsOk : State → Bool} {run : State → State} (hrun : ∀ u, Steady u (run u)) :
    UnitStep c s (judge tag params len permitted argsOk run (beginHappening s)) :=
  (beginHappening_steady s).step (judge_steady (hrun _)).unitStep

/-- A query leaves its answer alone (R184). -/
theorem query_unitStep {c : Instr} {tag : Byte} {params : List Byte} {len : Nat}
    {permitted argsOk : State → Bool} {results : State → List Byte} :
    UnitStep c s (judge tag params len permitted argsOk (answerOk tag results) (beginHappening s)) :=
  judgeBegun_unitStep fun u => respond_steady (.refl u)

theorem setFence_steady {tag : Byte} {params : List Byte} : Steady s (setFence tag params s) := by
  have hpersistent : ∀ v, Steady s (setPersistentFence tag v s) := fun v => by
    unfold setPersistentFence
    split
    · exact respond_steady (.refl s)
    · exact respond_steady (handOver_steady (Steady.refl s).same)
  have hvolatile : ∀ v, Steady s (setVolatileFence tag v s) := fun v => respond_steady (Steady.refl s).same
  unfold setFence
  dsimp only
  split
  · exact judge_steady (hpersistent _)
  · exact judge_steady (hvolatile _)

theorem requestMigration_steady {tag : Byte} {logical : Nat} : Steady s (requestMigration tag logical s) := by
  unfold requestMigration
  split
  · exact respond_steady (.refl s)
  split
  · exact respond_steady (Steady.refl s).same
  · exact respond_steady (.refl s)

theorem execAbortMigration_unitStep {c : Instr} {tag : Byte} {params : List Byte}
    (h : execAbortMigration tag params s = .next t) : UnitStep c s t := by
  refine .of_next h (judged_unitStep_of_steady fun u => respond_steady ?_)
  split
  · exact .refl u
  · exact (Steady.refl u).same

theorem execCheckpointNow_unitStep {c : Instr} {tag : Byte} {params : List Byte}
    (h : execCheckpointNow tag params s = .next t) : UnitStep c s t := by
  refine .of_next h (judged_unitStep_of_steady fun u => ?_)
  split
  · exact respond_steady (.refl u)
  · exact respond_steady (startCheckpoint_steady (.refl u))

theorem running_mem (h : s.running = true) : s.unit.state ∈ [UnitState.online, .writeProtected] := by
  simpa [State.running] using h

theorem execPrepareOff_unitStep {tag : Byte} {params : List Byte} (h : execPrepareOff tag params s = .next t) :
    UnitStep (.prepareOff tag params) s t :=
  .of_next h (judged_unitStep fun _ hp =>
    ((enterClosing_enters false).unitStep fun _ => running_mem hp).steady (respond_steady (.refl _)))

theorem execResume_unitStep {tag : Byte} {params : List Byte} (h : execResume tag params s = .next t) :
    UnitStep (.resume tag params) s t := by
  refine .of_next h (judged_unitStep fun u hp => ?_)
  simp only [State.mayResume, Bool.and_eq_true, decide_eq_true_eq] at hp
  obtain ⟨⟨hsafe, -⟩, -⟩ := hp
  exact (leaveSafe_enters.unitStep fun _ => List.mem_singleton.mpr hsafe).steady (respond_steady (.refl _))

/-- RESTART enters CLOSING from ONLINE and WRITE_PROTECTED, and RECOVERING at once from the states without tables in
service, where the warning is not asserted (R156, R157). -/
theorem restartNow_unitStep {tag : Byte} {params : List Byte} (hp : s.mayRestart = true) :
    UnitStep (.restart tag params) s (restartNow tag s) := by
  unfold restartNow
  split
  · rename_i hrunning
    exact ((enterClosing_enters true).unitStep fun _ => running_mem hrunning).steady (respond_steady (.refl _))
  · rename_i hidle
    simp only [State.mayRestart, Bool.not_eq_true _ ▸ hidle, Bool.false_or, Bool.and_eq_true, Bool.or_eq_true,
      decide_eq_true_eq, Bool.not_eq_true'] at hp
    obtain ⟨hs, hoff⟩ := hp
    have hrecovers : Enters [.unformatted, .safe, .failed] [.recovering] s (volatileReset s) :=
      { volatileReset_enters.leaving with state := List.mem_singleton.mpr (volatileReset_recovers hoff) }
    exact (hrecovers.unitStep fun _ => by simpa [or_assoc, or_comm, or_left_comm] using hs).steady
      (respond_steady (.refl _))

theorem execFormat_unitStep {tag : Byte} {params : List Byte} (h : execFormat tag params s = .next t) :
    UnitStep (.format tag params) s t := by
  refine .of_next h (judged_unitStep fun u hp => ?_)
  simp only [State.mayFormat, Bool.and_eq_true, Bool.or_eq_true, decide_eq_true_eq] at hp
  unfold formatNow
  split
  · exact (respond_steady (.refl u)).unitStep
  · refine ((startFormat_enters _ _).unitStep fun _ => ?_).steady (respond_steady (.refl _))
    rcases hp.2 with (hs | hs) | ⟨hs, -⟩ <;> simp [hs]

/-! ### Every command -/

theorem readTransfer_steady {n : Nat} (h : Steady s t) : Steady s (readTransfer n t) := by
  unfold readTransfer
  dsimp only
  split <;> exact h.same

/-- A read transfer touches the pending response alone (R182). -/
theorem execResponseRead_unitStep {c : Instr} {n : Nat} (h : execResponseRead n s = .next t) : UnitStep c s t := by
  refine .of_next h ?_
  split
  · exact (beginHappening_steady s).unitStep
  · exact (readTransfer_steady (beginHappening_steady s)).unitStep

/-- A transfer that is answered with a status alone, or not at all (R183). -/
theorem answeredUnless_unitStep {c : Instr} {p : Prop} [Decidable p] {tag : Byte} {status : Status} :
    UnitStep c s (if p then beginHappening s else respond tag status [] (beginHappening s)) := by
  split
  · exact (beginHappening_steady s).unitStep
  · exact (respond_steady (beginHappening_steady s)).unitStep

/-- CLEAR_EVENTS leaves the unit and the tables alone; the flags it clears belong to no transition (R185). -/
theorem execClearEvents_unitStep {c : Instr} {tag : Byte} {params : List Byte}
    (h : execClearEvents tag params s = .next t) : UnitStep c s t := by
  have hunit : t.unit = s.unit ∧ t.map = s.map := by
    cases h
    rcases judge_cases tag params 4 always always
      (fun t => respond tag .ok [] (t.setLink { t.link with flags := t.link.flags &&& ~~~ (eventMask params) }))
      (beginHappening s) with ⟨-, he⟩ | ⟨-, he⟩ | ⟨-, -, he⟩ | ⟨-, -, -, he⟩ | ⟨-, -, -, he⟩ <;> rw [he] <;> simp
  obtain ⟨hunit, hmap⟩ := hunit
  have hstate : t.unit.state = s.unit.state := by rw [hunit]
  exact ⟨unitSound_of_unit_eq hunit, latchSound_of_eq hstate (by rw [hmap]), fun hne => absurd hstate hne,
    fun _ hne => absurd hstate hne⟩

/-- Every command steps Unit Control as the tables have it. -/
theorem exec_unitStep (c : Instr) (h : exec c s = .next t) : UnitStep c s t := by
  cases c with
  | resetAssert => exact .of_next h (happening_unitStep fun _ => assertReset_unitStep)
  | resetRelease => exact .of_next h (happening_unitStep fun _ => releaseReset_unitStep)
  | holdUpAssert => exact .of_next h (happening_unitStep fun _ => assertHoldUp_unitStep)
  | holdUpDeassert => exact .of_next h (happening_unitStep fun _ => deassertHoldUp_unitStep)
  | sweepBoundary => exact execSweepBoundary_unitStep h
  | drainAgeReached => exact .of_next h (happening_unitStep .refl)
  | stampAgeClamp => exact .of_next h (happening_unitStep_of_steady fun u => (Steady.refl u).same)
  | hostRead => exact .of_next h (happening_unitStep_of_steady fun u => hostReadArrives_steady (.refl u))
  | hostWrite => exact .of_next h (happening_unitStep_of_steady fun u => hostWriteArrives_steady (.refl u))
  | hostPersist => exact .of_next h (happening_unitStep_of_steady fun u => hostPersistArrives_steady (.refl u))
  | hostUnknownKind => exact .of_next h (happening_unitStep_of_steady fun u => hostUnknownArrives_steady (.refl u))
  | waitQueueTake => exact .of_next h (performed_unitStep (by simp [followUps]))
  | persistTake => exact .of_next h (performed_unitStep (by simp [followUps]))
  | persistDone => exact .of_next h (performed_unitStep (by simp [followUps]))
  | flushDone => exact .of_next h (performed_unitStep (by simp [followUps]))
  | drainIssue => exact .of_next h (performed_unitStep (by simp [followUps]))
  | mediaGrant => exact .of_next h (happening_unitStep_of_steady fun u => grantAll_steady (.refl u))
  | attemptTimeout => exact execAttemptTimeout_unitStep h
  | staleCompletionDiscard => exact .of_next h (beginHappening_steady s).unitStep
  | hostReadReturn => exact execHostReadReturn_unitStep h
  | fillReadComplete => exact execFillReadComplete_unitStep h
  | drainWriteComplete => exact execDrainWriteComplete_unitStep h
  | copyReadComplete => exact execCopyReadComplete_unitStep h
  | copyWriteComplete => exact execCopyWriteComplete_unitStep h
  | recordWriteComplete => exact execRecordWriteComplete_unitStep h
  | checkpointLineComplete => exact execCheckpointLineComplete_unitStep h
  | formatOperationComplete => exact execFormatOperationComplete_unitStep h
  | recoveryReadComplete => exact execRecoveryReadComplete_unitStep h
  | migrationTake => exact .of_next h (performed_unitStep (by simp [followUps]))
  | quiesceEnd => exact .of_next h (performed_unitStep (by simp [followUps]))
  | migrationSwitch => exact .of_next h (performed_unitStep (by simp [followUps]))
  | lateCopyStart => exact .of_next h (performed_unitStep (by simp [followUps]))
  | abortComplete => exact .of_next h (performed_unitStep (by simp [followUps]))
  | recordWriteIssue => exact .of_next h (performed_unitStep (by simp [followUps]))
  | creatorJoinQueue => exact .of_next h (performed_unitStep (by simp [followUps]))
  | checkpointImageFix => exact .of_next h (performed_unitStep (by simp [followUps]))
  | drainLockEmptyingEnd => exact .of_next h (performed_unitStep (by simp [followUps]))
  | closingEmptyingEnd => exact .of_next h (performed_unitStep (by simp [followUps]))
  | closingCheckpointStart => exact .of_next h (performed_unitStep (by simp [followUps]))
  | responseRead => exact execResponseRead_unitStep h
  | unknownCommand => exact .of_next h answeredUnless_unitStep
  | getStatus => exact .of_next h query_unitStep
  | getHealth => exact .of_next h query_unitStep
  | getIdentity => exact .of_next h query_unitStep
  | readMapEntry => exact .of_next h query_unitStep
  | readFrameRecord => exact .of_next h query_unitStep
  | readPoolEntry => exact .of_next h query_unitStep
  | getSetting => exact .of_next h query_unitStep
  | stageSetting => exact .of_next h (judgeBegun_unitStep fun u => respond_steady (Steady.refl u).same)
  | commitSettings =>
    exact .of_next h (judged_unitStep_of_steady fun u => respond_steady (commitSettingsNow_steady (.refl u)))
  | discardStaged => exact .of_next h (judgeBegun_unitStep fun u => respond_steady (Steady.refl u).same)
  | setFenceVolatile => exact .of_next h (happening_unitStep_of_steady fun _ => setFence_steady)
  | setFencePersistent => exact .of_next h (happening_unitStep_of_steady fun _ => setFence_steady)
  | flush => exact .of_next h (judged_unitStep_of_steady fun u => respond_steady (Steady.refl u).same)
  | requestMigration => exact .of_next h (judged_unitStep_of_steady fun _ => requestMigration_steady)
  | abortMigration => exact execAbortMigration_unitStep h
  | checkpointNow => exact execCheckpointNow_unitStep h
  | prepareOff => exact execPrepareOff_unitStep h
  | resume => exact execResume_unitStep h
  | restart => exact .of_next h (judged_unitStep fun _ hp => restartNow_unitStep hp)
  | format => exact execFormat_unitStep h
  | readEvents => exact .of_next h query_unitStep
  | clearEvents => exact execClearEvents_unitStep h
  | setEventEnable => exact .of_next h (judgeBegun_unitStep fun u => respond_steady (Steady.refl u).same)
  | requestNotWellFormed => exact .of_next h answeredUnless_unitStep

/-! ### Every step -/

theorem tick_steady : Steady s (tick s) := by
  unfold tick
  split
  · exact .refl s
  · exact (Steady.refl s).same

/-- A step is a command's, or a tick, which leaves Unit Control alone. -/
theorem step_keepsUnit (h : step s = .next t) : (s.UnitSound → t.UnitSound) ∧ (s.LatchSound → t.LatchSound) := by
  unfold step at h
  split at h
  · have hstep := exec_unitStep _ h
    exact ⟨fun hs => hstep.unitSound (unitSound_of_unit_eq (s := s) rfl hs),
      fun hs => hstep.latchSound (latchSound_of_eq (s := s) rfl rfl hs)⟩
  · cases h
    exact ⟨tick_steady.follows.unitSound, tick_steady.follows.latchSound⟩

/-- Settles O7: what every command does to Unit Control keeps its items in their states, and the latch out of ONLINE. -/
theorem stepKeepsUnitControlSound : Obligations.StepKeepsUnitControlSound :=
  ⟨fun _ _ hs h => (step_keepsUnit h).1 hs, fun _ _ hs h => (step_keepsUnit h).2 hs⟩

/-- No attempt reaches its deadline in RESET, where the Media Port is empty (R63, R80). -/
theorem attemptTimeout_keepsReset {place : Fin 8} (hs : s.unit.state = .reset) (hidle : s.media.inflight = [])
    (h : exec (.attemptTimeout place) s = .next t) : t.unit.state = .reset := by
  have hnone : s.overdueAttempt? place = none := by simp [State.overdueAttempt?, hidle]
  rw [exec_attemptTimeout_none hnone] at h
  cases h
  rcases (settle_follows (beginHappening s)).state with hsame | ⟨honline, -⟩
  · simpa [hs] using hsame
  · simp [hs] at honline

/-- Settles O8: each change of unit state is tabled, because no deadline is reached in RESET; and it raises STATE_CHANGED. -/
theorem unitStateChangesOnlyAsTabled : Obligations.UnitStateChangesOnlyAsTabled := by
  refine ⟨fun c s t hsound hstopped h hne => ?_, fun c s t h => (exec_unitStep c h).changed⟩
  rcases (exec_unitStep c h).tabled hsound hne with hmay | ⟨hs, place, rfl⟩
  · exact hmay
  · obtain ⟨-, -, hidle⟩ := hstopped (.inl hs)
    exact absurd ((attemptTimeout_keepsReset hs hidle h).trans hs.symm) hne

end Sys2Proof.Machine
end

section
/-! SUPPORT. FAILED: what a command that leaves the unit there keeps (R143). -/

namespace Sys2Proof.Machine

set_option Elab.async false

/-- From s to t the unit is in FAILED, with the tables, the migration engine, the staging queue and the waiting creators of
s. -/
structure KeptInFailed (s t : State) : Prop where
  failed : t.unit.state = .failed
  map : t.map = s.map
  mig : t.mig = s.mig
  staging : t.jrn.staging = s.jrn.staging
  waiters : t.jrn.waiters = s.jrn.waiters

theorem KeptInFailed.refl {s : State} (hf : s.unit.state = .failed) : KeptInFailed s s := ⟨hf, rfl, rfl, rfl, rfl⟩

variable {s t u : State}

/-- An operation that touches neither the unit state, nor the tables, nor the engine, nor the records. -/
theorem KeptInFailed.same (h : KeptInFailed s t) (hstate : u.unit.state = t.unit.state := by simp)
    (hmap : u.map = t.map := by simp) (hmig : u.mig = t.mig := by simp)
    (hstaging : u.jrn.staging = t.jrn.staging := by simp) (hwaiters : u.jrn.waiters = t.jrn.waiters := by simp) :
    KeptInFailed s u :=
  ⟨hstate.trans h.failed, hmap.trans h.map, hmig.trans h.mig, hstaging.trans h.staging, hwaiters.trans h.waiters⟩

/-! ### The rest of a happening -/

/-- The one follow-up event that FAILED can leave enabled is the image fix: entry to FAILED abandons the checkpoint. -/
theorem imageFix?_of_failed {e : State → Option State} (he : e ∈ followUps) (hf : s.unit.state = .failed)
    (h : e s = some t) : imageFix? s = some t := by
  have hrunning := not_running_of_failed hf
  have hworking := not_working_of_failed hf
  have hstopped : ∀ e : State → Option State, (e s).isNone = true → e s = some t → imageFix? s = some t :=
    fun e hnone hsome => by simp [hsome] at hnone
  fin_cases he
  · exact hstopped _ (by rw [abortComplete?_isNone, hworking]; cases s.mig.current <;> rfl) h
  · exact hstopped _ (by rw [migrationSwitch?_isNone, hworking]; cases s.mig.current <;> rfl) h
  · exact hstopped _ (by simp [creatorJoin?_isNone, hf]) h
  · exact hstopped _ (by simp [flushDone?_isNone, hf]) h
  · exact hstopped _ (by simp [persistDone?_isNone, hf]) h
  · exact hstopped _ (by simp [waitQueueTake?_isNone, hf]) h
  · exact hstopped _ (by simp [persistTake?_isNone, State.notReady, hf]) h
  · exact hstopped _ (by simp [migrationTake?_isNone, hrunning]) h
  · exact hstopped _ (by rw [quiesceEnd?_isNone, State.engineRuns, hrunning, hf]; cases s.mig.current <;> rfl) h
  · exact hstopped _ (by rw [lateCopyStart?_isNone, hworking]; cases s.mig.current <;> rfl) h
  · exact hstopped _ (by simp [drainLockEmptyingEnd?_isNone, hf]) h
  · exact hstopped _ (by simp [closingEmptyingEnd?_isNone, hf]) h
  · exact hstopped _ (by simp [closingCheckpointStart?_isNone, hf]) h
  · exact h
  · exact hstopped _ (by simp [recordIssue?_isNone, State.mayIssueRecord, hworking, hf]) h
  · exact hstopped _ (by simp [drainIssue?_isNone, hworking]) h

/-- The image fix replaces the checkpoint in progress, and nothing of the records. -/
theorem imageFix?_records (h : imageFix? s = some t) :
    t.jrn.staging = s.jrn.staging ∧ t.jrn.waiters = s.jrn.waiters := by
  unfold imageFix? at h
  split at h
  · split at h <;> cases h
    simp
  · cases h

theorem followUp_keptInFailed {e : State → Option State} (he : e ∈ followUps) (h : KeptInFailed s t)
    (hu : e t = some u) : KeptInFailed s u := by
  have hfix := imageFix?_of_failed he h.failed hu
  obtain ⟨hstaging, hwaiters⟩ := imageFix?_records hfix
  exact h.same (by simp [imageFix?_frame t hfix]) (by simp [imageFix?_frame t hfix]) (by simp [imageFix?_frame t hfix])
    hstaging hwaiters

theorem grantAll_keptInFailed (h : KeptInFailed s t) : KeptInFailed s (grantAll t) := h.same

theorem settle_keptInFailed (h : KeptInFailed s t) : KeptInFailed s (settle t) :=
  settle_induct (KeptInFailed s) (fun _ _ hu hv => by
      obtain ⟨e, he, hv⟩ := List.exists_of_findSome?_eq_some hv
      exact followUp_keptInFailed he hu hv)
    (fun _ hu => grantAll_keptInFailed hu) t h

/-- No follow-up event enters FAILED. -/
theorem failed_of_settle (h : (settle s).unit.state = .failed) : s.unit.state = .failed := by
  rcases (settle_follows s).state with hsame | ⟨-, hprotected⟩
  · exact hsame ▸ h
  · simp [h] at hprotected

section
variable (hf : s.unit.state = .failed)
include hf

theorem beginHappening_keptInFailed : KeptInFailed s (beginHappening s) := (KeptInFailed.refl hf).same

/-- A happening in FAILED, of which the command's own effect keeps what it leaves in FAILED. -/
theorem happening_keptInFailed {body : State → State}
    (hbody : KeptInFailed s (beginHappening s) → (body (beginHappening s)).unit.state = .failed →
      KeptInFailed s (body (beginHappening s)))
    (h : (Host.Outcome.next (happening body s) : Host.Outcome State Fault Refusal) = .next t)
    (ht : t.unit.state = .failed) : KeptInFailed s t := by
  cases h
  exact settle_keptInFailed (hbody (beginHappening_keptInFailed hf) (failed_of_settle ht))

/-- A follow-up event commanded by name (log entry 3). -/
theorem performed_keptInFailed {e : State → Option State} (he : e ∈ followUps)
    (h : (Host.Outcome.next (happening (perform e) s) : Host.Outcome State Fault Refusal) = .next t)
    (ht : t.unit.state = .failed) : KeptInFailed s t := by
  refine happening_keptInFailed hf (fun hbegun _ => ?_) h ht
  unfold perform
  cases hu : e (beginHappening s) with
  | none => exact hbegun
  | some u => exact followUp_keptInFailed he hbegun hu

end

end Sys2Proof.Machine
end

section
/-! SUPPORT. That every command that leaves the unit in FAILED keeps the tables, the engine and the records there (R122,
R143). -/

namespace Sys2Proof.Machine

set_option Elab.async false

variable {s t u : State}

/-! ### Pins and time -/

theorem assertHoldUp_keptInFailed (h : KeptInFailed s t) : KeptInFailed s (assertHoldUp t) := by
  unfold assertHoldUp warningAsserted
  split
  · exact h
  · simp only [State.setUnit_unit, h.failed]
    exact h.same (hstate := h.failed.symm)

theorem deassertHoldUp_keptInFailed (h : KeptInFailed s t) : KeptInFailed s (deassertHoldUp t) := by
  unfold deassertHoldUp
  split
  · simp only [State.setUnit_unit, h.failed]
    exact h.same (hstate := h.failed.symm)
  · exact h

/-- In FAILED a sweep boundary commits the settings and sets the next boundary (R171, R172). -/
theorem boundaryWork_keptInFailed (h : KeptInFailed s t) : KeptInFailed s (boundaryWork t) := by
  have hcommit : KeptInFailed s (boundaryCommit t) := h.same
  have hsweep : boundarySweep (boundaryCommit t) = boundaryCommit t :=
    if_neg (by simp [not_running_of_failed hcommit.failed])
  have hring : ringTrigger (boundaryCommit t) = boundaryCommit t :=
    if_neg (by simp [not_running_of_failed hcommit.failed, h.failed])
  rw [boundaryWork, hsweep, hring]
  exact hcommit

/-! ### The management link -/

section
variable {tag : Byte} {params : List Byte} {len : Nat} {permitted argsOk : State → Bool} {run : State → State}

theorem respond_keptInFailed {status : Status} {results : List Byte} (h : KeptInFailed s t) :
    KeptInFailed s (respond tag status results t) := h.same

theorem judge_keptInFailed (h : KeptInFailed s t) (hrun : permitted t = true → KeptInFailed s (run t)) :
    KeptInFailed s (judge tag params len permitted argsOk run t) := by
  rcases judge_cases tag params len permitted argsOk run t with
    ⟨-, he⟩ | ⟨-, he⟩ | ⟨-, -, he⟩ | ⟨-, -, -, he⟩ | ⟨-, hp, -, he⟩ <;> rw [he]
  exacts [h, respond_keptInFailed h, respond_keptInFailed h, respond_keptInFailed h, hrun hp]

/-- A request whose execution leaves FAILED is refused in what stays there. -/
theorem judge_keptInFailed_of_leaves (h : KeptInFailed s t)
    (hfailed : (judge tag params len permitted argsOk run t).unit.state = .failed)
    (hrun : permitted t = true → (run t).unit.state ≠ .failed) :
    KeptInFailed s (judge tag params len permitted argsOk run t) := by
  rcases judge_cases tag params len permitted argsOk run t with
    ⟨-, he⟩ | ⟨-, he⟩ | ⟨-, -, he⟩ | ⟨-, -, -, he⟩ | ⟨-, hp, -, he⟩ <;> rw [he] at hfailed ⊢
  exacts [h, respond_keptInFailed h, respond_keptInFailed h, respond_keptInFailed h, absurd hfailed (hrun hp)]

section
variable (hf : s.unit.state = .failed)
include hf

/-- A request whose happening is its execution alone. -/
theorem judgeBegun_keptInFailed (hrun : ∀ u, KeptInFailed s u → KeptInFailed s (run u))
    (h : (Host.Outcome.next (judge tag params len permitted argsOk run (beginHappening s)) :
      Host.Outcome State Fault Refusal) = .next t) : KeptInFailed s t := by
  cases h
  exact judge_keptInFailed (beginHappening_keptInFailed hf) fun _ => hrun _ (beginHappening_keptInFailed hf)

/-- A request executed in a happening. -/
theorem judged_keptInFailed (hrun : ∀ u, KeptInFailed s u → permitted u = true → KeptInFailed s (run u))
    (h : (Host.Outcome.next (happening (judge tag params len permitted argsOk run) s) :
      Host.Outcome State Fault Refusal) = .next t) (ht : t.unit.state = .failed) : KeptInFailed s t :=
  happening_keptInFailed hf (fun hbegun _ => judge_keptInFailed hbegun (hrun _ hbegun)) h ht

theorem judged_keptInFailed_of_leaves
    (hrun : ∀ u, u.unit.state = .failed → permitted u = true → (run u).unit.state ≠ .failed)
    (h : (Host.Outcome.next (happening (judge tag params len permitted argsOk run) s) :
      Host.Outcome State Fault Refusal) = .next t) (ht : t.unit.state = .failed) : KeptInFailed s t :=
  happening_keptInFailed hf (fun hbegun hfailed => judge_keptInFailed_of_leaves hbegun hfailed (hrun _ hbegun.failed))
    h ht

end

end

theorem setFence_keptInFailed {tag : Byte} {params : List Byte} (h : KeptInFailed s t) :
    KeptInFailed s (setFence tag params t) := by
  have hrunning := not_running_of_failed h.failed
  unfold setFence
  dsimp only
  split
  · exact judge_keptInFailed h fun hp => by simp [hrunning] at hp
  · exact judge_keptInFailed h fun hp => by simp [State.mayFenceVolatile, hrunning, h.failed] at hp

/-- RESTART leaves FAILED (R143, R156). -/
theorem restartNow_leavesFailed {tag : Byte} (hf : s.unit.state = .failed) :
    (restartNow tag s).unit.state ≠ .failed := by
  have hstate := (volatileReset_enters (s := s)).state
  intro h
  simp only [restartNow, not_running_of_failed hf, Bool.false_eq_true, if_false, respond_frame] at h
  simp [h] at hstate

/-- FORMAT leaves FAILED (R143, R145). -/
theorem formatNow_leavesFailed {tag : Byte} {spares wear : Nat} (hf : s.unit.state = .failed) :
    (formatNow tag spares wear s).unit.state ≠ .failed := by
  have hstate := (startFormat_enters (s := s) spares wear).state
  intro h
  have hsafe : (decide (s.unit.state = .safe) && s.mediaBusy) = false := by simp [hf]
  simp only [formatNow, hsafe, Bool.false_eq_true, if_false, respond_frame] at h
  simp [h] at hstate

/-! ### Every command -/

section
variable (hf : s.unit.state = .failed)
include hf

/-- A command whose own effect is none. -/
theorem noEffect_keptInFailed {body : State → State} (hbody : body (beginHappening s) = beginHappening s)
    (h : (Host.Outcome.next (happening body s) : Host.Outcome State Fault Refusal) = .next t)
    (ht : t.unit.state = .failed) : KeptInFailed s t :=
  happening_keptInFailed hf (fun hbegun _ => hbody.symm ▸ hbegun) h ht

/-- A command whose own effect keeps what it finds in FAILED. -/
theorem always_keptInFailed {body : State → State} (hbody : ∀ u, KeptInFailed s u → KeptInFailed s (body u))
    (h : (Host.Outcome.next (happening body s) : Host.Outcome State Fault Refusal) = .next t)
    (ht : t.unit.state = .failed) : KeptInFailed s t :=
  happening_keptInFailed hf (fun hbegun _ => hbody _ hbegun) h ht

/-- With the Media Port empty no completion finds its operation and no deadline its attempt. -/
theorem exec_keptInFailed (hidle : s.media.inflight = []) (c : Instr) (h : exec c s = .next t)
    (ht : t.unit.state = .failed) : KeptInFailed s t := by
  have hnone : ∀ id, (beginHappening s).inFlight? id = none := fun id => by simp [State.inFlight?, hidle]
  have hread := fun id => readInFlight?_of_none (hnone id)
  have hwrite := fun id => writeInFlight?_of_none (hnone id)
  have hoverdue : ∀ p, (beginHappening s).overdueAttempt? p = none := fun p => by simp [State.overdueAttempt?, hidle]
  have hquery : ∀ {tag : Byte} {results : State → List Byte} (u : State), KeptInFailed s u →
      KeptInFailed s (answerOk tag results u) := fun u hu => respond_keptInFailed hu
  have hrunning : ∀ u : State, KeptInFailed s u → u.running = false := fun u hu => not_running_of_failed hu.failed
  cases c with
  | resetAssert =>
    refine happening_keptInFailed hf (fun _ hfailed => ?_) h ht
    rw [assertReset, if_neg (by simp [hf])] at hfailed
    cases hfailed
  | resetRelease => exact noEffect_keptInFailed hf (if_neg (by simp [hf])) h ht
  | holdUpAssert => exact always_keptInFailed hf (fun _ => assertHoldUp_keptInFailed) h ht
  | holdUpDeassert => exact always_keptInFailed hf (fun _ => deassertHoldUp_keptInFailed) h ht
  | sweepBoundary =>
    refine always_keptInFailed hf (fun u hu => ?_) h ht
    split
    · exact boundaryWork_keptInFailed hu
    · exact hu
  | drainAgeReached => exact always_keptInFailed hf (fun _ => id) h ht
  | stampAgeClamp => exact always_keptInFailed hf (fun _ hu => hu.same) h ht
  | hostRead => exact always_keptInFailed hf (fun _ hu => hu.same) h ht
  | hostWrite => exact always_keptInFailed hf (fun _ hu => hu.same) h ht
  | hostPersist => exact always_keptInFailed hf (fun _ hu => hu.same) h ht
  | hostUnknownKind => exact always_keptInFailed hf (fun _ hu => hu.same) h ht
  | waitQueueTake => exact performed_keptInFailed hf (by simp [followUps]) h ht
  | persistTake => exact performed_keptInFailed hf (by simp [followUps]) h ht
  | persistDone => exact performed_keptInFailed hf (by simp [followUps]) h ht
  | flushDone => exact performed_keptInFailed hf (by simp [followUps]) h ht
  | drainIssue => exact performed_keptInFailed hf (by simp [followUps]) h ht
  | mediaGrant => exact always_keptInFailed hf (fun _ => grantAll_keptInFailed) h ht
  | attemptTimeout place => exact noEffect_keptInFailed hf (by simp only [hoverdue]) h ht
  | staleCompletionDiscard =>
    cases h
    exact beginHappening_keptInFailed hf
  | hostReadReturn => exact noEffect_keptInFailed hf (by simp only [hread]) h ht
  | fillReadComplete => exact noEffect_keptInFailed hf (by simp only [hread]) h ht
  | drainWriteComplete => exact noEffect_keptInFailed hf (by simp only [hwrite]) h ht
  | copyReadComplete => exact noEffect_keptInFailed hf (by simp only [hread]) h ht
  | copyWriteComplete => exact noEffect_keptInFailed hf (by simp only [hwrite]) h ht
  | recordWriteComplete => exact noEffect_keptInFailed hf (by simp only [hwrite]) h ht
  | checkpointLineComplete => exact noEffect_keptInFailed hf (by simp only [hwrite]) h ht
  | formatOperationComplete id completion =>
    cases completion with
    | read stored => exact noEffect_keptInFailed hf (formatReadArrives_of_none (hnone id) stored) h ht
    | write report => exact noEffect_keptInFailed hf (formatWriteArrives_of_none (hnone id) report) h ht
  | recoveryReadComplete => exact noEffect_keptInFailed hf (by simp only [hread]) h ht
  | migrationTake => exact performed_keptInFailed hf (by simp [followUps]) h ht
  | quiesceEnd => exact performed_keptInFailed hf (by simp [followUps]) h ht
  | migrationSwitch => exact performed_keptInFailed hf (by simp [followUps]) h ht
  | lateCopyStart => exact performed_keptInFailed hf (by simp [followUps]) h ht
  | abortComplete => exact performed_keptInFailed hf (by simp [followUps]) h ht
  | recordWriteIssue => exact performed_keptInFailed hf (by simp [followUps]) h ht
  | creatorJoinQueue => exact performed_keptInFailed hf (by simp [followUps]) h ht
  | checkpointImageFix => exact performed_keptInFailed hf (by simp [followUps]) h ht
  | drainLockEmptyingEnd => exact performed_keptInFailed hf (by simp [followUps]) h ht
  | closingEmptyingEnd => exact performed_keptInFailed hf (by simp [followUps]) h ht
  | closingCheckpointStart => exact performed_keptInFailed hf (by simp [followUps]) h ht
  | responseRead =>
    cases h
    split
    · exact beginHappening_keptInFailed hf
    · exact (beginHappening_keptInFailed hf).same
  | unknownCommand =>
    cases h
    split
    · exact beginHappening_keptInFailed hf
    · exact respond_keptInFailed (beginHappening_keptInFailed hf)
  | getStatus => exact judgeBegun_keptInFailed hf hquery h
  | getHealth => exact judgeBegun_keptInFailed hf hquery h
  | getIdentity => exact judgeBegun_keptInFailed hf hquery h
  | readMapEntry => exact judgeBegun_keptInFailed hf hquery h
  | readFrameRecord => exact judgeBegun_keptInFailed hf hquery h
  | readPoolEntry => exact judgeBegun_keptInFailed hf hquery h
  | getSetting => exact judgeBegun_keptInFailed hf hquery h
  | stageSetting => exact judgeBegun_keptInFailed hf (fun _ hu => hu.same) h
  | commitSettings => exact judged_keptInFailed hf (fun _ hu _ => hu.same) h ht
  | discardStaged => exact judgeBegun_keptInFailed hf (fun _ hu => hu.same) h
  | setFenceVolatile => exact always_keptInFailed hf (fun _ => setFence_keptInFailed) h ht
  | setFencePersistent => exact always_keptInFailed hf (fun _ => setFence_keptInFailed) h ht
  | flush => exact judged_keptInFailed hf (fun _ hu _ => hu.same) h ht
  | requestMigration => exact judged_keptInFailed hf (fun u hu hp => by simp [hrunning u hu] at hp) h ht
  | abortMigration => exact judged_keptInFailed hf (fun u hu hp => by simp [State.mayAbort, hrunning u hu] at hp) h ht
  | checkpointNow => exact judged_keptInFailed hf (fun u hu hp => by simp [hrunning u hu] at hp) h ht
  | prepareOff => exact judged_keptInFailed hf (fun u hu hp => by simp [hrunning u hu] at hp) h ht
  | resume => exact judged_keptInFailed hf (fun u hu hp => by simp [State.mayResume, hu.failed] at hp) h ht
  | restart => exact judged_keptInFailed_of_leaves hf (fun _ hu _ => restartNow_leavesFailed hu) h ht
  | format => exact judged_keptInFailed_of_leaves hf (fun _ hu _ => formatNow_leavesFailed hu) h ht
  | readEvents => exact judgeBegun_keptInFailed hf hquery h
  | clearEvents => exact judgeBegun_keptInFailed hf (fun _ hu => hu.same) h
  | setEventEnable => exact judgeBegun_keptInFailed hf (fun _ hu => hu.same) h
  | requestNotWellFormed =>
    cases h
    split
    · exact beginHappening_keptInFailed hf
    · exact respond_keptInFailed (beginHappening_keptInFailed hf)

end

/-- Settles O9: in FAILED the Media Port is empty, and what no completion brings about no command does there. -/
theorem failedKeepsTablesAndQueues : Obligations.FailedKeepsTablesAndQueues := by
  intro c s t hstopped hf h ht
  obtain ⟨-, -, hidle⟩ := hstopped (.inr hf)
  have hkept := exec_keptInFailed hf hidle c h ht
  exact ⟨hkept.map, hkept.mig, hkept.staging, hkept.waiters⟩

end Sys2Proof.Machine
end

section
/-! SUPPORT. The reset state, the reset input, and FORMAT's acceptance (R80, R144, R145, R146). -/

namespace Sys2Proof.Machine

set_option Elab.async false

variable {s : State}

/-! ### The state after reset (R144) -/

theorem reset_mapSound : State.reset.MapSound where
  unloaded _ := ⟨rfl, rfl, rfl⟩
  loadedIn := nofun
  rebuilding _ := rfl
  paired := ⟨nofun, nofun⟩
  poolOnce := List.nodup_nil
  pool f := by simp [State.reset, State.frame?, MapController.unloaded]
  target f r h := by simp [State.reset, State.frame?, MapController.unloaded] at h
  moving _ h := nomatch h
  queued _ h := absurd h List.not_mem_nil
  replay _ _ h := nomatch h

/-- Settles O3: the values are those of the reset state's definition, and with every table empty each invariant holds. -/
theorem resetStateIsAsTheRulesGive : Obligations.ResetStateIsAsTheRulesGive := by
  refine ⟨by decide, ?_, List.nodup_nil, by decide, ?_, ?_, nofun, fun _ => ⟨rfl, rfl, rfl⟩, reset_mapSound,
    List.Pairwise.nil⟩
  · constructor <;> decide
  · constructor <;> decide
  · constructor <;> simp [State.reset]

/-! ### The reset input (R80, R144) -/

/-- Every block is empty after a hard reset, and in RESET none begins anything. -/
theorem hardReset_quiet (s : State) : (hardReset s).quiet = true := rfl

theorem exec_resetAssert (h : s.unit.state ≠ .reset) :
    exec .resetAssert s = .next (hardReset (beginHappening s)) := by
  have hbody : assertReset (beginHappening s) = hardReset (beginHappening s) := if_neg h
  have hquiet : (assertReset (beginHappening s)).quiet = true := hbody ▸ hardReset_quiet _
  exact congrArg Host.Outcome.next ((happening_of_quiet hquiet).trans hbody)

/-- With the Media Port empty, what the warning leaves of RECOVERING or FORMATTING is SAFE without tables (R162). -/
theorem abandonToSafe_eq (hwaiting : s.media.waiting = []) (harriving : s.media.arriving = [])
    (hinflight : s.media.inflight = []) : abandonToSafe s = { s with
      unit := { s.unit with
        state := .safe, safeOrigin := some .drainLock, standing := none, geometry := none, format := none
        recovery := none }
      map := MapController.unloaded
      media := { s.media with promoCheckpoint := 0, promoCopy := 0 }
      link := s.flagged .stateChanged } := by
  have hwork : abandonUnitWork s = s.setMedia { s.media with promoCheckpoint := 0, promoCopy := 0 } := by
    simp [abandonUnitWork, withdraw, classWaits, hwaiting, harriving, hinflight, State.setMedia]
  rw [abandonToSafe, hwork]
  rfl

/-- The state in which Unit Control enters RECOVERING at the release (R144). -/
def State.released (s : State) (v : BitVec 6) (a : BitVec 2) : State :=
  { s with
    out := Outputs.none
    unit := { s.unit with sizeStraps := v, addrStraps := a }
    time := { s.time with tick := 0#32, nextBoundary := 1000000#32 } }

theorem exec_resetRelease (v : BitVec 6) (a : BitVec 2) (hs : s.unit.state = .reset) :
    exec (.resetRelease v a) s = .next (settle (startRecovery (s.released v a))) :=
  congrArg Host.Outcome.next (congrArg settle (if_pos hs))

/-- Under the warning the entry to RECOVERING passes to SAFE at once (R158, R162). -/
theorem startRecovery_abandons (hon : s.unit.holdUp = true) (hwaiting : s.media.waiting = [])
    (harriving : s.media.arriving = []) (hinflight : s.media.inflight = []) : startRecovery s = { s with
      unit := { s.unit with
        state := .safe, safeOrigin := some .drainLock, standing := none, geometry := none, format := none
        recovery := none }
      map := MapController.unloaded
      media := { s.media with promoCheckpoint := 0, promoCopy := 0 }
      link := s.flagged .stateChanged } := by
  rw [startRecovery, if_pos (by exact hon), abandonToSafe_eq]
  · simp only [State.flagged, enterState, raise, State.setUnit, State.setLink, flag_or_again]
  exacts [hwaiting, harriving, hinflight]

/-- Settles O14: a hard reset leaves nothing that follows, and in RESET the Media Port is empty at the release. -/
theorem resetInputMakesTheHardResetAndRecovery : Obligations.ResetInputMakesTheHardResetAndRecovery := by
  refine ⟨fun s => ⟨fun h => ?_, fun hs hq => ?_⟩,
    fun v a s => ⟨fun hs hstopped hoff => ?_, fun hs hstopped hon => ?_, fun hs => ?_⟩⟩
  · rw [exec_resetAssert h, hardReset]
    rfl
  · exact congrArg Host.Outcome.next (happening_of_noEffect hq (if_pos hs))
  · obtain ⟨-, harriving, -⟩ := hstopped (.inl hs)
    rw [exec_resetRelease v a hs, startRecovery_eq (s := s.released v a) hoff]
    simp only [State.released, harriving, List.nil_append]
    rfl
  · obtain ⟨hwaiting, harriving, hinflight⟩ := hstopped (.inl hs)
    rw [exec_resetRelease v a hs, startRecovery_abandons (s := s.released v a) hon hwaiting harriving hinflight]
    rfl
  · exact congrArg Host.Outcome.next (congrArg settle (if_neg hs))

/-! ### FORMAT (R145, R146) -/

/-- FORMAT is permitted in UNFORMATTED, FAILED and SAFE with origin PREPARE_OFF, the warning not asserted. -/
theorem mayFormat_iff (s : State) : s.mayFormat = true ↔ s.unit.holdUp = false ∧
    (s.unit.state = .unformatted ∨ s.unit.state = .failed ∨
      (s.unit.state = .safe ∧ s.unit.safeOrigin = some .prepareOff)) := by
  simp [State.mayFormat, or_assoc]

theorem formatArgsOk_iff (straps : BitVec 6) (spares wear : Nat) :
    formatArgsOk (strapsNP straps) spares wear = true ↔ 16 ≤ spares ∧ spares ≤ 4096 ∧
      spares ≤ (straps.toNat + 1) * 1024 / 8 ∧ (wear = 0 ∨ 65536 ≤ wear) := by
  simp [formatArgsOk, maxSpares, strapsNP, and_assoc]

theorem formatSpares_eq (s0 s1 w0 w1 w2 w3 : Byte) :
    paramField [s0, s1, w0, w1, w2, w3] 0 2 = s0.toNat + 256 * s1.toNat := by
  simp [paramField, leValue]

theorem formatWear_eq (s0 s1 w0 w1 w2 w3 : Byte) : paramField [s0, s1, w0, w1, w2, w3] 2 4 =
    w0.toNat + 256 * (w1.toNat + 256 * (w2.toNat + 256 * w3.toNat)) := by
  simp [paramField, leValue]

theorem exec_format (tag s0 s1 w0 w1 w2 w3 : Byte) (s : State) {spares wear : Nat}
    (hspares : spares = s0.toNat + 256 * s1.toNat)
    (hwear : wear = w0.toNat + 256 * (w1.toNat + 256 * (w2.toNat + 256 * w3.toNat))) :
    exec (.format tag [s0, s1, w0, w1, w2, w3]) s = .next (settle (judge tag [s0, s1, w0, w1, w2, w3] 6 State.mayFormat
      (fun t => formatArgsOk (strapsNP t.unit.sizeStraps) spares wear) (formatNow tag spares wear)
      (beginHappening s))) := by
  rw [hspares, hwear, ← formatSpares_eq s0 s1 w0 w1 w2 w3, ← formatWear_eq s0 s1 w0 w1 w2 w3]
  rfl

/-- FORMAT accepted: the clearing of R146, FORMATTING, and the read of the old record requested (R147). -/
theorem startFormat_eq (spares wear : Nat) (s : State) : startFormat spares wear s = { s with
    unit := { s.unit with
      state := .formatting, safeOrigin := none, standing := none, failCause := none, restartPending := false
      stage := none, geometry := none, recovery := none
      format := some ⟨spares, chosenRetireWear wear, .oldRecord, 1, 0#32⟩ }
    buf := ⟨[], [], false, none⟩
    map := MapController.unloaded
    mig := ⟨none, [], [], none, none⟩
    jrn := JournalController.empty
    health := { s.health with spareLow := false, lifeHigh := false }
    media := { s.media with arriving := s.media.arriving ++ [unitRequest .read 0] }
    link := s.flagged .stateChanged } := by
  rw [startFormat, request_eq]
  exacts [rfl, nofun, nofun]

/-- Settles O55: the judgement of R183 with FORMAT's own conditions, and then BUSY or the clearing. -/
theorem formatClearsAndBegins : Obligations.FormatClearsAndBegins := by
  refine ⟨fun tag s0 s1 w0 w1 w2 w3 s hr hstate => ?_,
    fun tag s0 s1 w0 w1 w2 w3 s spares wear hoff hstate hspares hwear ok hok => ?_⟩
  · have hmay : (beginHappening s).mayFormat = false := by
      rw [Bool.eq_false_iff, ne_eq, mayFormat_iff]
      rintro ⟨hoff, h⟩
      simp_all
    rw [exec_format tag s0 s1 w0 w1 w2 w3 s rfl rfl, judge_badState, respond_beginHappening]
    exacts [hr, rfl, hmay]
  · have hr : (beginHappening s).unit.state ≠ .reset := by
      intro (h : s.unit.state = .reset)
      simp [h] at hstate
    have hmay : (beginHappening s).mayFormat = true := (mayFormat_iff _).mpr ⟨hoff, hstate⟩
    rw [exec_format tag s0 s1 w0 w1 w2 w3 s hspares hwear, hok]
    rw [← formatArgsOk_iff]
    refine ⟨fun hbad => ?_, fun hargs hsafe hbusy => ?_, fun hargs hidle harriving => ?_⟩
    · rw [judge_badArg, respond_beginHappening]
      exacts [hr, rfl, hmay, Bool.eq_false_iff.mpr hbad]
    · have hbusy : (beginHappening s).mediaBusy = true := by
        rw [State.mediaBusy]
        rcases hbusy with h | h <;> simp [h]
      rw [judge_run, formatNow, if_pos (by simp [hsafe, hbusy]), respond_beginHappening]
      exacts [hr, rfl, hmay, hargs]
    · have hidle : ¬((beginHappening s).unit.state = .safe && (beginHappening s).mediaBusy) = true := by
        simp only [State.mediaBusy, Bool.and_eq_true, not_and, decide_eq_true_eq]
        intro hsafe
        obtain ⟨hwaiting, hinflight⟩ := hidle hsafe
        simp [hwaiting, hinflight, harriving]
      rw [judge_run, formatNow, if_neg hidle, startFormat_eq]
      · simp only [beginHappening_frame, harriving, List.nil_append]
        rfl
      exacts [hr, rfl, hmay, hargs]

end Sys2Proof.Machine
end

section
/-! SUPPORT. Recovery up to replay: the geometry record, the headers, the images (R2, R150, R151, R152). -/

namespace Sys2Proof.Machine

set_option Elab.async false

/-! ### The read of a step (R64, R72 to R74) -/

section
variable {s : State} {op : InFlight} {w : RecoveryWork} {stored : Stored} {delivered : Option LineData}
  {health : HealthMonitor} {media : MediaPort}

/-- The state in which a media outcome is taken up: its operation gone, its health event counted. -/
def State.afterOutcome (s : State) (health : HealthMonitor) (media : MediaPort) : State :=
  { s with out := Outputs.none, health := health, media := media }

theorem exec_recoveryReadComplete_leaves (hop : s.Reading op .unitControl) (hw : s.unit.recovery = some w)
    (hleaves : s.ReadLeaves op stored delivered health media) : exec (.recoveryReadComplete op.id stored) s =
      .next (settle (recoveryOutcome w (delivered.map Config.metaFormat.read) (s.afterOutcome health media))) := by
  obtain ⟨hdelivered, hleft⟩ := readOutcome_leaves (s := beginHappening s) hleaves
  rw [exec_recoveryReadComplete stored hop hw, hleft, ReadOutcome.metaLine, hdelivered]
  rfl

end

/-! ### The geometry record (R2, R150) -/

section
variable {s : State} {w : RecoveryWork} {delivered : Option MetaLine}

theorem validGeometry_none (h : ∀ g, delivered = some (.geometry g true) → geometryInRange g = false) :
    validGeometry delivered = none := by
  unfold validGeometry
  split
  · rw [if_neg (by simp [h _ rfl])]
  · rfl

theorem validGeometry_some {g : GeometryRecord} (hg : geometryInRange g = true) :
    validGeometry (some (.geometry g true)) = some g := if_pos hg

theorem recoverGeometry_invalid (h : validGeometry delivered = none) :
    recoverGeometry w delivered s = endUnformatted .invalid none s := by
  simp only [recoverGeometry, h]

theorem recoverGeometry_mismatch {g : GeometryRecord} (h : validGeometry delivered = some g)
    (hnP : g.nP ≠ strapsNP s.unit.sizeStraps) :
    recoverGeometry w delivered s = endUnformatted .mismatch (some g) s := by
  simp only [recoverGeometry, h, if_pos hnP]

theorem recoverGeometry_inUse {g : GeometryRecord} (h : validGeometry delivered = some g)
    (hnP : g.nP = strapsNP s.unit.sizeStraps) : recoverGeometry w delivered s =
      readNext { w with step := .headerA } (headerLine g.nP .a)
        (s.setUnit { s.unit with standing := some .inUse, geometry := some g }) := by
  simp only [recoverGeometry, h, if_neg (not_not.mpr hnP)]

end

/-- Settles O44: the read is judged by R2, and a valid record by the straps. -/
theorem recoveryJudgesTheGeometryRecord : Obligations.RecoveryJudgesTheGeometryRecord := by
  intro op w stored s hop hw hstep hs invalid hinvalid
  have hgeometry : ∀ delivered u, recoveryOutcome w delivered u = recoverGeometry w delivered u := fun _ _ => by
    simp only [recoveryOutcome, hstep]
  refine ⟨fun hfar => ?_, fun data hclean => ?_⟩
  · rw [exec_recoveryReadComplete_leaves hop hw (.inr (.inr ⟨rfl, hfar, rfl, rfl⟩)), hgeometry,
      recoverGeometry_invalid (delivered := none.map _) rfl, hinvalid]
    rfl
  · rw [exec_recoveryReadComplete_leaves hop hw (.inl ⟨data, rfl, hclean, rfl, rfl⟩), hgeometry, Option.map_some]
    refine ⟨fun hbad => ?_, fun g hread hrange => ?_⟩
    · rw [recoverGeometry_invalid (validGeometry_none fun g hg => hbad g (Option.some.inj hg)), hinvalid]
      rfl
    · rw [hread]
      have hvalid := validGeometry_some hrange
      refine ⟨fun hother => ?_, fun hsame => ?_⟩
      · rw [recoverGeometry_mismatch (s := s.afterOutcome _ _) hvalid hother]
        rfl
      · rw [recoverGeometry_inUse (s := s.afterOutcome _ _) hvalid hsame,
          readNext_eq (by simp [hs, State.afterOutcome]) (by simp [hs, State.afterOutcome])]
        rfl

end Sys2Proof.Machine
end

section
/-! SUPPORT. The choice of a checkpoint area: its header, its image line by line, its examination and rejection (R135, R151,
R152). -/

namespace Sys2Proof.Machine

set_option Elab.async false

/-! ### The consistency examination (R152) -/

section
variable {g : GeometryRecord} {t : Tables}

/-- An entry is paired when the frame it names is MAPPED and owned by it. -/
def Tables.EntryOwns (t : Tables) (l : Nat) (e : MapEntry) : Prop :=
  ∃ r, t.frames[e.frame]? = some r ∧ r.role = .mapped ∧ r.owner = some l

/-- A test of every item of a list with its place, said of the places. -/
theorem all_zipIdx_iff {α : Type} (l : List α) (p : α × Nat → Bool) :
    l.zipIdx.all p = true ↔ ∀ (i : Nat) (a : α), l[i]? = some a → p (a, i) = true := by
  rw [List.all_eq_true]
  exact ⟨fun h i a ha => h (a, i) (List.mk_mem_zipIdx_iff_getElem?.mpr ha),
    fun h q hq => h q.2 q.1 (List.mem_zipIdx_iff_getElem?.mp hq)⟩

theorem all_iff_getElem? {α : Type} (l : List α) (p : α → Bool) :
    l.all p = true ↔ ∀ (i : Nat) (a : α), l[i]? = some a → p a = true := by
  rw [List.all_eq_true]
  exact ⟨fun h i a ha => h a (List.mem_of_getElem? ha), fun h a ha =>
    let ⟨i, hi⟩ := List.mem_iff_getElem?.mp ha
    h i a hi⟩

theorem entryOwns_iff {l : Nat} {e : MapEntry} : (match t.frames[e.frame]? with
    | some r => decide (r.role = .mapped) && decide (r.owner = some l)
    | none => false) = true ↔ t.EntryOwns l e := by
  unfold Tables.EntryOwns
  cases t.frames[e.frame]? <;> simp

theorem rolesConsistent_iff : rolesConsistent g t = true ↔
    (∀ f r, t.frames[f]? = some r → (r.role = .metadata ↔ f < metaCount g) ∧ r.role ≠ .target) ∧
    t.frames.countP (fun r => r.role = .mapped) = logicalCount g ∧
    t.frames.countP (fun r => r.role = .spare ∨ r.role = .retired) = g.spares ∧
    (∀ (l : Nat) (e : MapEntry), t.entries[l]? = some e → t.EntryOwns l e) := by
  rw [rolesConsistent, Bool.and_eq_true, Bool.and_eq_true, Bool.and_eq_true, Bool.and_eq_true, all_zipIdx_iff,
    all_iff_getElem?, all_zipIdx_iff]
  simp only [decide_eq_true_eq, eq_iff_iff, Bool.decide_or]
  constructor
  · rintro ⟨⟨⟨⟨hmeta, htarget⟩, hmapped⟩, hspare⟩, howns⟩
    exact ⟨fun f r hr => ⟨hmeta f r hr, htarget f r hr⟩, hmapped, hspare, fun l e he => entryOwns_iff.mp (howns l e he)⟩
  · rintro ⟨hroles, hmapped, hspare, howns⟩
    exact ⟨⟨⟨⟨fun f r hr => (hroles f r hr).1, fun f r hr => (hroles f r hr).2⟩, hmapped⟩, hspare⟩,
      fun l e he => entryOwns_iff.mpr (howns l e he)⟩

/-- Entries that each own the frame they name name different frames: a frame has one owner. -/
theorem entryOwns_injective {l k : Nat} {e d : MapEntry} (he : t.EntryOwns l e) (hd : t.EntryOwns k d)
    (hsame : e.frame = d.frame) : l = k := by
  obtain ⟨r, hr, -, howner⟩ := he
  obtain ⟨q, hq, -, hother⟩ := hd
  rw [← hsame, hr] at hq
  cases hq
  exact Option.some.inj (howner.symm.trans hother)

/-- The examination of R152, item by item; that no two entries name one frame follows from the frames' owners. -/
theorem consistent_iff : consistent g t = true ↔
    t.frames.length = g.nP ∧ t.entries.length = logicalCount g ∧
    (∀ f r, t.frames[f]? = some r → (r.role = .metadata ↔ f < metaCount g) ∧ r.role ≠ .target) ∧
    t.frames.countP (fun r => r.role = .mapped) = logicalCount g ∧
    t.frames.countP (fun r => r.role = .spare ∨ r.role = .retired) = g.spares ∧
    (∀ (l : Nat) (e : MapEntry), t.entries[l]? = some e → t.EntryOwns l e) ∧
    (∀ (l k : Nat) (e d : MapEntry), t.entries[l]? = some e → t.entries[k]? = some d → e.frame = d.frame → l = k) ∧
    1 ≤ t.fence ∧ t.fence ≤ logicalCount g := by
  simp only [consistent, Bool.and_eq_true, decide_eq_true_eq, rolesConsistent_iff]
  constructor
  · rintro ⟨⟨⟨⟨hframes, hentries⟩, hroles, hmapped, hspare, howns⟩, hone⟩, hlast⟩
    exact ⟨hframes, hentries, hroles, hmapped, hspare, howns,
      fun l k e d he hd => entryOwns_injective (howns l e he) (howns k d hd), hone, hlast⟩
  · rintro ⟨hframes, hentries, hroles, hmapped, hspare, howns, -, hone, hlast⟩
    exact ⟨⟨⟨⟨hframes, hentries⟩, hroles, hmapped, hspare, howns⟩, hone⟩, hlast⟩

end

/-! ### Entry to FAILED (R143) -/

/-- Nothing follows the entry to FAILED. -/
theorem settle_enterFailed {s : State} (cause : FailCause) (hf : s.unit.state ≠ .failed) :
    settle (enterFailed cause s) = enterFailed cause s := by
  rw [enterFailed_eq cause hf]
  exact settle_of_quiet (quiet_of_failed rfl rfl rfl)

/-- What a failure leaves: FAILED with its cause, the tables kept, and nothing in flight (R78, R143). -/
theorem enterFailed_leaves {s : State} (cause : FailCause) (hf : s.unit.state ≠ .failed) :
    (enterFailed cause s).unit.state = .failed ∧ (enterFailed cause s).unit.failCause = some cause ∧
    (enterFailed cause s).map = s.map ∧ (enterFailed cause s).media.inflight = [] ∧
    (enterFailed cause s).health = s.health := by
  rw [enterFailed_eq cause hf]
  exact ⟨rfl, rfl, rfl, rfl, rfl⟩

/-! ### Headers and candidates (R151) -/

theorem readImage_first {w : RecoveryWork} {s : State} {area : Area} {rest : List Area}
    (h : w.candidates = area :: rest) :
    readImage w s = readNext { w with step := .image ⟨0, 0#32, []⟩ } (imageLineAt s.nP area 0) s := by
  simp only [readImage, h]

theorem readImage_fails {w : RecoveryWork} (s : State) (h : w.candidates = []) :
    readImage w s = enterFailed (if w.sawInconsistent then .imageInconsistent else .noCheckpoint) s := by
  simp only [readImage, h]

theorem rejectArea_next {w : RecoveryWork} {s : State} {area other : Area} {more : List Area} (bad : Bool)
    (h : w.candidates = area :: other :: more) : rejectArea bad w s =
      readNext { w with
        candidates := other :: more, sawInconsistent := w.sawInconsistent || bad, step := .image ⟨0, 0#32, []⟩ }
        (imageLineAt s.nP other 0) s := by
  rw [rejectArea, readImage_first (area := other) (rest := more) (by rw [h, List.tail_cons]), h, List.tail_cons]

theorem rejectArea_last {w : RecoveryWork} {area : Area} (s : State) (bad : Bool) (h : w.candidates = [area]) :
    rejectArea bad w s = enterFailed (if w.sawInconsistent || bad then .imageInconsistent else .noCheckpoint) s :=
  readImage_fails s (by rw [h, List.tail_cons])

/-! ### The image (R135, R152) -/

section
variable {s : State} {w : RecoveryWork} {x : ImageWork} {area : Area} {rest : List Area} {g : GeometryRecord}
  {m : MetaLine}

theorem recoverImageLine_none : recoverImageLine x w none s = rejectArea false w s := rfl

/-- The image work after a delivered line. -/
def ImageWork.after (x : ImageWork) (m : MetaLine) : ImageWork :=
  ⟨x.line + 1, Config.imageCheckStep x.check m, itemsOf m :: x.items⟩

variable (hareas : w.candidates = area :: rest) (hg : s.geometryInUse = some g)
include hareas hg

theorem recoverImageLine_next (hmore : (x.after m).line < imageLines g.nP) : recoverImageLine x w (some m) s =
    readNext { w with step := .image (x.after m) } (imageLineAt g.nP area (x.after m).line) s := by
  simp only [recoverImageLine, hareas, hg]
  exact if_pos hmore

theorem recoverImageLine_last {h : CheckpointHeader} (hheader : w.headerOf area = some h)
    (hlast : imageLines g.nP ≤ (x.after m).line) :
    recoverImageLine x w (some m) s = judgeImage area h g (x.after m) w s := by
  simp only [recoverImageLine, hareas, hg, hheader]
  exact if_neg (Nat.not_lt.mpr hlast)

end

section
variable {s : State} {w : RecoveryWork} {y : ImageWork} {area : Area} {g : GeometryRecord} {h : CheckpointHeader}

theorem judgeImage_wrongCheck (hcheck : y.check ≠ h.imageCheck) : judgeImage area h g y w s = rejectArea false w s :=
  if_pos hcheck

theorem judgeImage_inconsistent (hcheck : y.check = h.imageCheck)
    (hbad : consistent g (tablesOf y.items.reverse.flatten) = false) :
    judgeImage area h g y w s = rejectArea true w s := by
  simp [judgeImage, hcheck, hbad]

theorem judgeImage_accepts (hcheck : y.check = h.imageCheck)
    (hgood : consistent g (tablesOf y.items.reverse.flatten) = true) :
    judgeImage area h g y w s = acceptArea area h (tablesOf y.items.reverse.flatten) w s := by
  simp [judgeImage, hcheck, hgood]

end

end Sys2Proof.Machine
end

section
/-! SUPPORT. What the rest of a happening keeps of the tables just loaded: the tables-loaded condition, the persistent fence,
the unclean count, the ring's tail, and that no recovery is in progress (R20, R126, R153). -/

namespace Sys2Proof.Machine

set_option Elab.async false

/-- What only a load or unload of the tables, or a persistent SET_FENCE, changes in the Map Controller. -/
def MapController.loadMarks (m : MapController) : Bool × Nat × Nat := (m.loaded, m.fence, m.unclean)

/-- From s to t, the tables stay loaded or unloaded, with their fence and unclean count, the ring keeps its tail, and
recovery its place. -/
structure KeepsLoaded (s t : State) : Prop where
  loadMarks : t.map.loadMarks = s.map.loadMarks
  tail : t.jrn.tail = s.jrn.tail
  recovery : t.unit.recovery = s.unit.recovery

variable {s t u : State}

theorem KeepsLoaded.refl (s : State) : KeepsLoaded s s := ⟨rfl, rfl, rfl⟩

theorem KeepsLoaded.trans (h : KeepsLoaded s t) (k : KeepsLoaded t u) : KeepsLoaded s u :=
  ⟨k.loadMarks.trans h.loadMarks, k.tail.trans h.tail, k.recovery.trans h.recovery⟩

/-! ### Map Controller -/

@[simp] theorem updEntry_loadMarks (logical : Nat) (f : MapEntry → MapEntry) (s : State) :
    (updEntry logical f s).map.loadMarks = s.map.loadMarks := rfl

@[simp] theorem updFrame_loadMarks (physical : Nat) (f : FrameRecord → FrameRecord) (s : State) :
    (updFrame physical f s).map.loadMarks = s.map.loadMarks := rfl

@[simp] theorem setMigrationMark_loadMarks (logical : Nat) (v : Bool) (s : State) :
    (setMigrationMark logical v s).map.loadMarks = s.map.loadMarks := rfl

@[simp] theorem setFailMark_loadMarks (logical : Nat) (v : Bool) (s : State) :
    (setFailMark logical v s).map.loadMarks = s.map.loadMarks := rfl

@[simp] theorem joinPool_loadMarks (f : Nat) (s : State) : (joinPool f s).map.loadMarks = s.map.loadMarks := rfl

@[simp] theorem retireFrame_loadMarks (f : Nat) (s : State) : (retireFrame f s).map.loadMarks = s.map.loadMarks := rfl

@[simp] theorem takeTarget_loadMarks (f : Nat) (rest : List Nat) (logical : Nat) (s : State) :
    (takeTarget f rest logical s).map.loadMarks = s.map.loadMarks := rfl

@[simp] theorem retireCause_loadMarks (f : Nat) (reason : Reason) (s : State) :
    (retireCause f reason s).map.loadMarks = s.map.loadMarks := by
  unfold retireCause
  split
  · split
    · dsimp only
      split <;> simp
    · rfl
  · rfl

/-! ### Migration Engine -/

@[simp] theorem setLatch_loadMarks (s : State) : (setLatch s).map.loadMarks = s.map.loadMarks := by
  by_cases hs : s.unit.state = .online
  · simp [setLatch_online hs]
    rfl
  · rw [setLatch_notOnline hs]
    rfl

@[simp] theorem setLatch_recovery (s : State) : (setLatch s).unit.recovery = s.unit.recovery := by
  by_cases hs : s.unit.state = .online
  · simp [setLatch_online hs, enterState_unit]
  · rw [setLatch_notOnline hs]
    rfl

theorem spareExhausted_keepsLoaded (m : Migration) (s : State) : KeepsLoaded s (spareExhausted m s) :=
  ⟨by simp [spareExhausted], by simp [spareExhausted], by simp [spareExhausted]⟩

theorem noSpare_keepsLoaded (m : Migration) (s : State) : KeepsLoaded s (noSpare m s) :=
  ⟨by simp [noSpare], by simp [noSpare], by simp [noSpare]⟩

theorem startCopy_keepsLoaded (i : Nat) (s : State) : KeepsLoaded s (startCopy i s) :=
  ⟨by simp, by simp, by simp⟩

theorem askTarget_keepsLoaded (m : Migration) (s : State) : KeepsLoaded s (askTarget m s) := by
  unfold askTarget
  split
  · exact KeepsLoaded.trans ⟨by simp, by simp, by simp⟩ (startCopy_keepsLoaded 0 _)
  split
  · exact spareExhausted_keepsLoaded m s
  · exact noSpare_keepsLoaded m s

@[simp] theorem returnTarget_loadMarks (m : Migration) (s : State) :
    (returnTarget m s).map.loadMarks = s.map.loadMarks := by
  unfold returnTarget
  split
  · split <;> simp
  · rfl

theorem completeAbort_keepsLoaded (m : Migration) (s : State) : KeepsLoaded s (completeAbort m s) := by
  refine ⟨?_, by simp, by simp⟩
  unfold completeAbort
  dsimp only
  split <;> simp

theorem switchTables_loadMarks (m : Migration) (s : State) : (switchTables m s).map.loadMarks = s.map.loadMarks := by
  unfold switchTables releaseSource
  dsimp only
  split <;> simp

@[simp] theorem checkNewFrame_loadMarks (f : Nat) (s : State) :
    (checkNewFrame f s).map.loadMarks = s.map.loadMarks := by
  unfold checkNewFrame
  split
  · split
    · simp
    · split <;> simp
  · rfl

theorem switchMigration_keepsLoaded (m : Migration) (s : State) : KeepsLoaded s (switchMigration m s) :=
  ⟨by simp [switchMigration, switchTables_loadMarks], by simp, by simp⟩

/-! ### Journal Controller -/

@[simp] theorem handOver_tail (c : Creator) (r : JournalRecord) (s : State) :
    (handOver c r s).jrn.tail = s.jrn.tail := by
  unfold handOver waitWith
  split
  · rfl
  · split
    · rfl
    · dsimp only
      split <;> simp

@[simp] theorem ringTrigger_tail (s : State) : (ringTrigger s).jrn.tail = s.jrn.tail := by
  unfold ringTrigger triggerCheckpoint
  split
  · split <;> rfl
  · rfl

theorem creatorJoin?_tail (h : creatorJoin? s = some t) : t.jrn.tail = s.jrn.tail := by
  unfold creatorJoin? at h
  split at h
  · split at h
    · cases h
    split at h <;> cases h
    · rfl
    · unfold onJoined
      split <;> simp [stageRecord]
  · cases h

theorem recordIssue?_tail (h : recordIssue? s = some t) : t.jrn.tail = s.jrn.tail := by
  unfold recordIssue? at h
  split at h
  · split at h <;> cases h
    simp [issueRecord]
  · cases h

theorem imageFix?_tail (h : imageFix? s = some t) : t.jrn.tail = s.jrn.tail := by
  unfold imageFix? at h
  split at h
  · split at h <;> cases h
    simp
  · cases h

/-! ### The stages of the sequences -/

theorem toShutdown_keepsLoaded (s : State) : KeepsLoaded s (toShutdown s) :=
  ⟨by simp, by simp [toShutdown], by simp [toShutdown]⟩

/-! ### The rest of a happening -/

/-- An event that touches neither Unit Control nor the tables. -/
theorem KeepsLoaded.of_frame (h : t.unit = s.unit ∧ t.map = s.map) (htail : t.jrn.tail = s.jrn.tail) :
    KeepsLoaded s t := by
  obtain ⟨hunit, hmap⟩ := h
  exact ⟨by rw [hmap], htail, by rw [hunit]⟩

/-- Each of the sixteen follow-up events. -/
theorem followUp_keepsLoaded {e : State → Option State} (he : e ∈ followUps) (h : e s = some t) : KeepsLoaded s t := by
  fin_cases he
  · unfold abortComplete? at h
    split at h
    · split at h <;> cases h
      exact completeAbort_keepsLoaded _ s
    · cases h
  · unfold migrationSwitch? at h
    split at h
    · split at h <;> cases h
      exact switchMigration_keepsLoaded _ s
    · cases h
  · exact .of_frame (by simp [creatorJoin?_frame s h]) (creatorJoin?_tail h)
  · exact .of_frame (by simp [flushDone?_frame s h]) (by simp [flushDone?_frame s h])
  · exact .of_frame (by simp [persistDone?_frame s h]) (by simp [persistDone?_frame s h])
  · exact .of_frame (by simp [waitQueueTake?_frame s h]) (by simp [waitQueueTake?_frame s h])
  · exact .of_frame (by simp [persistTake?_frame s h]) (by simp [persistTake?_frame s h])
  · unfold migrationTake? at h
    split at h
    · split at h <;> cases h
      exact ⟨by simp, by simp, by simp⟩
    · cases h
  · unfold quiesceEnd? at h
    split at h
    · split at h <;> cases h
      exact askTarget_keepsLoaded _ s
    · cases h
  · exact .of_frame (by simp [lateCopyStart?_frame s h]) (by simp [lateCopyStart?_frame s h])
  · unfold drainLockEmptyingEnd? at h
    split at h <;> cases h
    exact toShutdown_keepsLoaded s
  · unfold closingEmptyingEnd? at h
    split at h <;> cases h
    exact ⟨rfl, rfl, rfl⟩
  · refine .of_frame (by simp [closingCheckpointStart?_frame s h]) ?_
    unfold closingCheckpointStart? at h
    split at h <;> cases h
    rfl
  · exact .of_frame (by simp [imageFix?_frame s h]) (imageFix?_tail h)
  · exact .of_frame (by simp [recordIssue?_frame s h]) (recordIssue?_tail h)
  · exact .of_frame (by simp [drainIssue?_frame s h]) (by simp [drainIssue?_frame s h])

theorem settle_keepsLoaded (s : State) : KeepsLoaded s (settle s) := by
  refine settle_induct (KeepsLoaded s) (fun u v hu hv => ?_) (fun u hu => hu.trans ?_) s (.refl s)
  · obtain ⟨e, he, h⟩ := List.exists_of_findSome?_eq_some hv
    exact hu.trans (followUp_keepsLoaded he h)
  · exact .of_frame (by simp) (by simp)

end Sys2Proof.Machine
end

section
/-! SUPPORT. Recovery from its headers to the loaded tables (R135 to R139, R151 to R154). -/

namespace Sys2Proof.Machine

set_option Elab.async false

/-! ### The candidate order (R151, log entry 27) -/

theorem candidateOrder_both (a b : CheckpointHeader) : candidateOrder (some a) (some b) =
    if 1 ≤ (b.seq - a.seq).toNat ∧ (b.seq - a.seq).toNat < 2 ^ 31 then [.b, .a] else [.a, .b] := by
  simp only [candidateOrder, seqHigher, Bool.and_eq_true, decide_eq_true_eq]
  rfl

/-! ### The end of replay (R138, R139, R153) -/

/-- The tables that the end of replay loads, and where it leaves the ring and the unit. -/
theorem endReplay_leaves (area : Area) (h : CheckpointHeader) (g : GeometryRecord) (x : ReplayWork) (truncated : Bool)
    (w : RecoveryWork) (s : State) :
    (endReplay area h g x truncated w s).map.loadMarks = (true, x.tables.fence,
      if cleanShutdown h x.applied then x.tables.unclean else satRaise max32 x.tables.unclean) ∧
    (endReplay area h g x truncated w s).jrn.tail = h.posSlot ∧
    (endReplay area h g x truncated w s).unit.recovery = none ∧
    ((endReplay area h g x truncated w s).unit.state = .online ∨
      (endReplay area h g x truncated w s).unit.state = .writeProtected) := by
  unfold endReplay
  cases truncated <;> cases hclean : cleanShutdown h x.applied <;>
    simp [startCheckpoint, enterState_unit, loadTables, scanTables, MapController.loadMarks, ringAfterReplay]

/-- What the end of replay loads, the rest of the happening keeps. -/
theorem settle_endReplay {area : Area} {h : CheckpointHeader} {g : GeometryRecord} {x : ReplayWork} {truncated : Bool}
    {w : RecoveryWork} {s t : State} (ht : settle (endReplay area h g x truncated w s) = t) :
    t.map.loaded = true ∧ (t.unit.state = .online ∨ t.unit.state = .writeProtected) ∧ t.unit.recovery = none ∧
    t.jrn.tail = h.posSlot ∧ t.map.fence = x.tables.fence ∧
    t.map.unclean = if cleanShutdown h x.applied then x.tables.unclean else satRaise max32 x.tables.unclean := by
  obtain ⟨hmarks, htail, hrecovery, hstate⟩ := endReplay_leaves area h g x truncated w s
  obtain ⟨kmarks, ktail, krecovery⟩ := ht ▸ settle_keepsLoaded (endReplay area h g x truncated w s)
  obtain ⟨hloaded, hfence, hunclean⟩ : _ ∧ _ ∧ _ := by
    simpa only [MapController.loadMarks, Prod.mk.injEq] using kmarks.trans hmarks
  refine ⟨hloaded, ?_, krecovery.trans hrecovery, ktail.trans htail, hfence, hunclean⟩
  rcases (ht ▸ settle_follows (endReplay area h g x truncated w s)).state with hsame | ⟨-, hprotected⟩
  · rw [hsame]
    exact hstate
  · exact .inr hprotected

/-! ### A read of recovery goes on to the next, or fails recovery (R63, R143, R151, R152) -/

section
variable {op : InFlight} {w : RecoveryWork} {stored : Stored} {delivered : Option LineData} {health : HealthMonitor}
  {media : MediaPort} {s : State} (hop : s.Reading op .unitControl) (hw : s.unit.recovery = some w)
  (hs : s.unit.state = .recovering) (hleaves : s.ReadLeaves op stored delivered health media)
include hop hw hs hleaves

theorem exec_recovery_asks {v : RecoveryWork} {line : Nat}
    (h : recoveryOutcome w (delivered.map Config.metaFormat.read) (s.afterOutcome health media) =
      readNext v line (s.afterOutcome health media)) :
    exec (.recoveryReadComplete op.id stored) s = .next (settle { s with
      out := Outputs.none
      unit := { s.unit with recovery := some v }
      health := health
      media := { media with arriving := s.media.arriving ++ [unitRequest .read line] } }) := by
  have hf : (s.afterOutcome health media).unit.state ≠ .failed := by simp [State.afterOutcome, hs]
  have hr : (s.afterOutcome health media).unit.state ≠ .reset := by simp [State.afterOutcome, hs]
  rw [exec_recoveryReadComplete_leaves hop hw hleaves, h, readNext_eq hf hr, ← hleaves.arriving]
  rfl

theorem exec_recovery_fails {cause : FailCause}
    (h : recoveryOutcome w (delivered.map Config.metaFormat.read) (s.afterOutcome health media) =
      enterFailed cause (s.afterOutcome health media)) :
    ∃ t, exec (.recoveryReadComplete op.id stored) s = .next t ∧ t.unit.state = .failed ∧
      t.unit.failCause = some cause ∧ t.map = s.map ∧ t.media.inflight = [] := by
  have hf : (s.afterOutcome health media).unit.state ≠ .failed := by simp [State.afterOutcome, hs]
  obtain ⟨hstate, hcause, hmap, hidle, -⟩ := enterFailed_leaves cause hf
  exact ⟨_, by rw [exec_recoveryReadComplete_leaves hop hw hleaves, h, settle_enterFailed cause hf], hstate, hcause,
    hmap, hidle⟩

end

/-! ### The steps (R151, R152) -/

section
variable {w : RecoveryWork} {delivered : Option MetaLine} {s : State}

theorem recoveryOutcome_headerA (h : w.step = .headerA) :
    recoveryOutcome w delivered s = recoverHeaderA w delivered s := by
  simp only [recoveryOutcome, h]

theorem recoveryOutcome_headerB (h : w.step = .headerB) :
    recoveryOutcome w delivered s = recoverHeaderB w delivered s := by
  simp only [recoveryOutcome, h]

theorem recoveryOutcome_image {x : ImageWork} (h : w.step = .image x) :
    recoveryOutcome w delivered s = recoverImageLine x w delivered s := by
  simp only [recoveryOutcome, h]

theorem recoveryOutcome_replay {x : ReplayWork} (h : w.step = .replay x) :
    recoveryOutcome w delivered s = recoverSlot x w delivered s := by
  simp only [recoveryOutcome, h]

end

/-- A rejected area gives way to the next candidate, or recovery fails. -/
theorem rejectArea_cases {s : State} {w : RecoveryWork} {area : Area} {rest : List Area} {g : GeometryRecord}
    (bad : Bool) (hareas : w.candidates = area :: rest) (hg : s.geometryInUse = some g) :
    (∀ other more, rest = other :: more → rejectArea bad w s =
      readNext { w with
        candidates := rest, sawInconsistent := w.sawInconsistent || bad, step := .image ⟨0, 0#32, []⟩ }
        (imageLineAt g.nP other 0) s) ∧
    (rest = [] → rejectArea bad w s =
      enterFailed (if w.sawInconsistent || bad then .imageInconsistent else .noCheckpoint) s) := by
  refine ⟨?_, ?_⟩
  · rintro other more rfl
    rw [rejectArea_next bad hareas, State.nP, hg]
    rfl
  · rintro rfl
    exact rejectArea_last s bad hareas

/-- Settles O45: a read's outcome is taken up by its step, and goes on to the next read, fails recovery or ends replay. -/
theorem recoveryChoosesItsAreaAndLoadsTheTables : Obligations.RecoveryChoosesItsAreaAndLoadsTheTables := by
  refine ⟨?_, fun a b => ⟨rfl, rfl, rfl, candidateOrder_both a b⟩, fun g t => consistent_iff, ?_⟩
  · intro op w stored delivered health media s hop hw hs hleaves read usable asks fails hread husable hasks hfails
    have hexec := exec_recoveryReadComplete_leaves hop hw hleaves
    have hgoes : ∀ {v line}, recoveryOutcome w read (s.afterOutcome health media) =
        readNext v line (s.afterOutcome health media) →
        exec (.recoveryReadComplete op.id stored) s = .next (settle (asks v line)) := by
      rw [hread]
      intro v line heq
      rw [exec_recovery_asks hop hw hs hleaves heq, hasks]
    have hends : ∀ {cause}, recoveryOutcome w read (s.afterOutcome health media) =
        enterFailed cause (s.afterOutcome health media) → fails cause := by
      rw [hread]
      exact fun heq => (hfails _).mpr (exec_recovery_fails hop hw hs hleaves heq)
    obtain rfl : usable = usableHeader read := husable
    refine ⟨fun hstep => hgoes ?_, fun area rest hstep horder => hgoes ?_,
      fun hstep hnone husable hfirst => hends ?_, fun x area rest g hstep hareas hg rejects hrejects => ?_⟩
    · rw [recoveryOutcome_headerA hstep]
      rfl
    · rw [recoveryOutcome_headerB hstep, recoverHeaderB, readImage_first horder, horder]
      rfl
    · rw [recoveryOutcome_headerB hstep, recoverHeaderB, readImage_fails _ (by simp [hnone, husable, candidateOrder]),
        if_neg (by simp [hfirst])]
    · have hg' : (s.afterOutcome health media).geometryInUse = some g := hg
      have hreject : ∀ {bad}, recoverImageLine x w read (s.afterOutcome health media) =
          rejectArea bad w (s.afterOutcome health media) → rejects bad := by
        intro bad heq
        obtain ⟨hnext, hlast⟩ := rejectArea_cases bad hareas hg'
        rw [← heq, ← recoveryOutcome_image hstep] at hnext hlast
        exact (hrejects bad).mpr ⟨fun other more hrest => hgoes (hnext other more hrest),
          fun hrest => hends (hlast hrest)⟩
      refine ⟨fun hnone => hreject (by rw [hnone, recoverImageLine_none]), fun m y h t hsome hy hheader ht => ?_⟩
      obtain rfl : y = x.after m := hy
      subst ht
      refine ⟨fun hmore => hgoes ?_, fun hlast hcheck => hreject ?_, fun hlast hcheck hbad => hreject ?_,
        fun hlast hcheck hgood => ?_⟩
      · rw [recoveryOutcome_image hstep, hsome, recoverImageLine_next hareas hg' hmore]
      · rw [hsome, recoverImageLine_last hareas hg' hheader hlast, judgeImage_wrongCheck hcheck]
      · rw [hsome, recoverImageLine_last hareas hg' hheader hlast, judgeImage_inconsistent hcheck hbad]
      · rw [hexec, ← hread, recoveryOutcome_image hstep, hsome, recoverImageLine_last hareas hg' hheader hlast,
          judgeImage_accepts hcheck hgood, acceptArea, readNext_eq, hasks, ← hleaves.arriving, State.nP, hg']
        · rfl
        all_goals simp [State.afterOutcome, hs]
  · intro op w x area rest h g stored data s hop hw hs hstep hareas hheader hg hclean hstop clean hc
    obtain rfl : clean = cleanShutdown h x.applied := hc
    have hleaves : s.ReadLeaves op stored (some data) s.health (s.freed op) := .inl ⟨data, rfl, hclean, rfl, rfl⟩
    have hexec := exec_recoveryReadComplete_leaves hop hw hleaves
    rw [recoveryOutcome_replay hstep, Option.map_some,
      recoverSlot_stop _ hareas hheader (s := s.afterOutcome s.health (s.freed op)) hg hstop] at hexec
    exact ⟨_, hexec, settle_endReplay rfl⟩

end Sys2Proof.Machine
end

section
/-! SUPPORT. The operations of FORMAT: the old record's read, the writes of Table 8.4 in order, completion and failure (R147 to
R149). -/

namespace Sys2Proof.Machine

set_option Elab.async false

/-! ### An operation of FORMAT is requested (R147) -/

section
variable {s : State} {w : FormatWork}

theorem requestFormatStep_eq {kind : MediaKind} (hs : s.unit.state = .formatting)
    (hkind : w.kind (strapsNP s.unit.sizeStraps) = kind) : requestFormatStep w s = { s with
      unit := { s.unit with format := some w }
      media := { s.media with
        arriving := s.media.arriving ++ [unitRequest kind (w.step.line (strapsNP s.unit.sizeStraps))] } } := by
  subst hkind
  exact request_eq (s := s.setUnit { s.unit with format := some w }) (by simp [hs]) (by simp [hs]) _

theorem formatWriteOutcome_next {step : FormatStep} {check : Word32}
    (hnext : w.step.next (strapsNP s.unit.sizeStraps) = some step)
    (hcheck : w.checkAfter (strapsNP s.unit.sizeStraps) = check) :
    formatWriteOutcome w .stored s = requestFormatStep { w with step := step, imageCheck := check } s := by
  simp only [formatWriteOutcome, hnext, hcheck]

/-- The steps of Table 8.4 in their order. -/
theorem next_wipeSlot {nP k : Nat} (h : w.step = .wipeSlot k) (hk : k < 2047) :
    w.step.next nP = some (.wipeSlot (k + 1)) := by
  have hmore : k + 1 < Config.ringSlots := Nat.succ_lt_succ hk
  simp only [h, FormatStep.next, if_pos hmore]

theorem next_wipeSlot_last {nP : Nat} (h : w.step = .wipeSlot 2047) : w.step.next nP = some (.imageLine 0) := by
  rw [h]
  rfl

theorem next_imageLine {nP k : Nat} (h : w.step = .imageLine k) (hk : k + 1 < imageLines nP) :
    w.step.next nP = some (.imageLine (k + 1)) := by
  simp only [h, FormatStep.next, if_pos hk]

theorem next_imageLine_last {nP k : Nat} (h : w.step = .imageLine k) (hk : k + 1 = imageLines nP) :
    w.step.next nP = some .headerA := by
  simp only [h, FormatStep.next, if_neg (Nat.not_lt.mpr hk.ge)]

theorem formatWriteOutcome_last (h : w.step = .newRecord) : formatWriteOutcome w .stored s = completeFormat w s := by
  simp only [formatWriteOutcome, h, FormatStep.next]

/-- The fresh image of step 3, whatever step FORMAT stands at: each logical frame at its first frame, no line poisoned. -/
theorem FormatWork.image_eq (w : FormatWork) (nP : Nat) : w.image nP = {
    entries := (List.range (logicalCount (w.record nP))).map fun f => (metaCount (w.record nP) + f, 0#64)
    frames := freshFrames (w.record nP), fence := logicalCount (w.record nP), unclean := 0 } := by
  simp only [FormatWork.image, imageOfTables, freshTables, freshEntries, List.map_map]
  rfl

theorem FormatWork.checkAfter_kept (nP : Nat) (h : ∀ k, w.step ≠ .imageLine k) : w.checkAfter nP = w.imageCheck := by
  unfold FormatWork.checkAfter
  split
  · exact absurd ‹_› (h _)
  · rfl

theorem FormatWork.checkAfter_imageLine {k : Nat} (nP : Nat) (h : w.step = .imageLine k) :
    w.checkAfter nP = Config.imageCheckStep w.imageCheck ((w.image nP).line k) := by
  simp only [FormatWork.checkAfter, h]

/-! ### Outcomes (R63, R64, R72) -/

variable {op : InFlight}

/-- No frame is loaded whose wear a write could raise (R72). -/
theorem worn_of_noFrames (h : s.map.frames = []) (frame : Nat) : s.worn frame = s.map := by
  rw [State.worn, h, List.modify_nil, ← h]

theorem exec_formatRead {stored : Stored} {delivered : Option LineData} {health : HealthMonitor} {media : MediaPort}
    (hop : s.Reading op .unitControl) (hw : s.unit.format = some w)
    (hleaves : s.ReadLeaves op stored delivered health media) :
    exec (.formatOperationComplete op.id (.read stored)) s = .next (settle
      (formatReadOutcome w (delivered.map Config.metaFormat.read) (s.afterOutcome health media))) := by
  obtain ⟨hdelivered, hleft⟩ := readOutcome_leaves (s := beginHappening s) hleaves
  have hread : (beginHappening s).readInFlight? op.id (· = .unitControl) = some op := by
    have hfound : (beginHappening s).inFlight? op.id = some op := hop.found
    simp [State.readInFlight?, hfound, hop.kind, hop.requester]
  have hw : (beginHappening s).unit.format = some w := hw
  change Host.Outcome.next (settle (formatReadArrives op.id stored (beginHappening s))) = _
  simp only [formatReadArrives, hread, hw, hleft, ReadOutcome.metaLine, hdelivered]
  rfl

theorem exec_formatWrite (report : WriteReport) (hop : s.Writing op .unitControl) (hw : s.unit.format = some w) :
    exec (.formatOperationComplete op.id (.write report)) s = .next (settle
      (formatWriteOutcome w report (writeOutcome op report (beginHappening s)))) := by
  have hw : (beginHappening s).unit.format = some w := hw
  change Host.Outcome.next (settle (formatWriteArrives op.id report (beginHappening s))) = _
  simp only [formatWriteArrives, hop.writeInFlight? (p := (· = .unitControl)) (by simp), hw]

/-- A write of FORMAT stored, up to its effect: its place is freed. -/
theorem exec_formatWrite_stored (hop : s.Writing op .unitControl) (hw : s.unit.format = some w)
    (hframes : s.map.frames = []) : exec (.formatOperationComplete op.id (.write .stored)) s = .next (settle
      (formatWriteOutcome w .stored (s.afterOutcome s.health (s.freed op)))) := by
  have hworn : (beginHappening s).worn (op.request.physical / 64) = s.map := worn_of_noFrames hframes _
  rw [exec_formatWrite .stored hop hw, writeOutcome_stored, hworn]
  rfl

/-- The next operation of Table 8.4 is asked for. -/
theorem exec_formatWrite_next {step : FormatStep} {check : Word32} {content : MetaLine}
    (hop : s.Writing op .unitControl) (hw : s.unit.format = some w) (hs : s.unit.state = .formatting)
    (hframes : s.map.frames = []) (hnext : w.step.next (strapsNP s.unit.sizeStraps) = some step)
    (hcheck : w.checkAfter (strapsNP s.unit.sizeStraps) = check)
    (hkind : { w with step := step, imageCheck := check }.kind (strapsNP s.unit.sizeStraps) =
      .write (.metaLine content)) :
    exec (.formatOperationComplete op.id (.write .stored)) s = .next (settle { s with
      out := Outputs.none
      unit := { s.unit with format := some { w with step := step, imageCheck := check } }
      media := { s.freed op with
        arriving := s.media.arriving ++
          [unitRequest (.write (.metaLine content)) (step.line (strapsNP s.unit.sizeStraps))] } }) := by
  rw [exec_formatWrite_stored hop hw hframes,
    formatWriteOutcome_next (s := s.afterOutcome s.health (s.freed op)) hnext hcheck,
    requestFormatStep_eq (s := s.afterOutcome s.health (s.freed op)) hs hkind]
  rfl

/-! ### Completion (R148) -/

/-- FORMAT's completion, from the empty journal that its acceptance left (R146). -/
theorem completeFormat_eq {g : GeometryRecord} (hg : g = w.record (strapsNP s.unit.sizeStraps))
    (hjrn : s.jrn = JournalController.empty) : completeFormat w s = { s with
      unit := { s.unit with state := .online, format := none, standing := some .inUse, geometry := some g }
      map := {
        loaded := true, entries := freshEntries g, frames := freshFrames g, pool := buildPool (freshFrames g)
        fence := logicalCount g, volatileFence := none, latch := false, unclean := 0 }
      time := { s.time with sweeps := 0 }
      jrn := { JournalController.empty with
        nextSeq := 1#32, fence := logicalCount g, descriptor := some ⟨.a, 1#32, 1#32, 0, true⟩
        staging := [⟨.unitControl, .opened, none⟩] }
      link := { s.link with flags := s.link.flags ||| Event.formatDone.flag ||| Event.stateChanged.flag } } := by
  subst hg
  rw [completeFormat, handOver_joins]
  · simp only [loadTables, State.setUnit_jrn, State.setMap_jrn, hjrn, freshTables, overdueMapped_freshFrames]
    rfl
  · simp [loadTables, hjrn, JournalController.empty]
  · simp [loadTables, hjrn, JournalController.empty]

end

/-- Settles O43: the step of Table 8.4 decides what follows each outcome. -/
theorem formatMakesItsOperationsInOrder : Obligations.FormatMakesItsOperationsInOrder := by
  intro op w s hw hs hloaded hframes nP g image hnP hg himage
  obtain rfl : g = w.record nP := hg
  obtain rfl : image = w.image nP := himage.trans (w.image_eq nP).symm
  subst hnP
  refine ⟨fun stored delivered health media count hop hleaves hcount => ?_, fun asks hop hasks => ?_,
    fun hop hstep hjrn => ?_, fun hop => ?_⟩
  · have hcount : count = newFormatCount (delivered.map Config.metaFormat.read) := hcount
    rw [exec_formatRead hop hw hleaves, formatReadOutcome,
      requestFormatStep_eq (s := s.afterOutcome health media) (kind := .write (.metaLine .invalid)) hs rfl, hcount,
      ← hleaves.arriving]
    rfl
  · have hask : ∀ {step check content}, w.step.next (strapsNP s.unit.sizeStraps) = some step →
        w.checkAfter (strapsNP s.unit.sizeStraps) = check →
        { w with step := step, imageCheck := check }.kind (strapsNP s.unit.sizeStraps) = .write (.metaLine content) →
        asks step check content (step.line (strapsNP s.unit.sizeStraps)) :=
      fun hnext hcheck hkind => (hasks _ _ _ _).mpr (exec_formatWrite_next hop hw hs hframes hnext hcheck hkind)
    refine ⟨fun k hstep hk => ?_, fun hstep => ?_, fun k check hstep hcheck => ⟨fun hk => ?_, fun hk => ?_⟩,
      fun hstep => ?_, fun hstep => ?_⟩
    · exact hask (next_wipeSlot hstep hk) (w.checkAfter_kept _ (by simp [hstep])) rfl
    · exact hask (next_wipeSlot_last hstep) (w.checkAfter_kept _ (by simp [hstep])) rfl
    · exact hask (next_imageLine hstep hk) ((w.checkAfter_imageLine _ hstep).trans hcheck.symm) rfl
    · exact hask (next_imageLine_last hstep hk) ((w.checkAfter_imageLine _ hstep).trans hcheck.symm) rfl
    · exact hask (by rw [hstep]; rfl) (w.checkAfter_kept _ (by simp [hstep])) rfl
    · exact hask (by rw [hstep]; rfl) (w.checkAfter_kept _ (by simp [hstep])) rfl
  · rw [exec_formatWrite_stored hop hw hframes, formatWriteOutcome_last hstep,
      completeFormat_eq (s := s.afterOutcome s.health (s.freed op)) rfl hjrn]
    rfl
  · have hf : (writeOutcome op .programFail (beginHappening s)).unit.state ≠ .failed := by simp [hs]
    obtain ⟨hstate, hcause, hmap, hidle, hhealth⟩ := enterFailed_leaves .formatProgramFail hf
    refine ⟨_, by rw [exec_formatWrite .programFail hop hw, formatWriteOutcome, settle_enterFailed _ hf], hstate, hcause,
      hmap.trans ?_, hidle, by rw [hhealth]; rfl⟩
    exact worn_of_noFrames hframes _

end Sys2Proof.Machine
end

section
/-! SUPPORT. The stages of DRAIN_LOCK and CLOSING, and the leaving of SAFE by RESUME and by RESTART (R156, R157, R160, R164,
R167, R168). -/

namespace Sys2Proof.Machine

section
variable {s : State}

/-! ### The ends of the stages (R160, R164) -/

theorem drainLockEmptyingEnd?_some (hs : s.unit.state = .drainLock) (hstage : s.unit.stage = some .emptying)
    (hempty : s.emptied = true) : drainLockEmptyingEnd? s = some (toShutdown s) :=
  if_pos (by simp [hs, hstage, hempty])

theorem closingEmptyingEnd?_some (hs : s.unit.state = .closing) (hstage : s.unit.stage = some .emptying)
    (hempty : s.emptied = true) :
    closingEmptyingEnd? s = some (s.setUnit { s.unit with stage := some .checkpoint }) :=
  if_pos (by simp [hs, hstage, hempty])

theorem closingCheckpointStart?_some (hs : s.unit.state = .closing) (hstage : s.unit.stage = some .checkpoint)
    (hidle : s.jrn.checkpoint = none) : closingCheckpointStart? s = some (startCheckpoint true s) :=
  if_pos (by simp [hs, hstage, hidle])

/-- With everything emptied no record is staged and no creator holds one. -/
theorem journal_of_emptied (hempty : s.emptied = true) : s.jrn.staging = [] ∧ s.jrn.waiters = [] := by
  simp only [State.emptied, State.journalIdle, Bool.and_eq_true, List.isEmpty_iff] at hempty
  exact hempty.2

/-- With everything emptied the SHUTDOWN record stands alone in the staging queue (R160). -/
theorem toShutdown_emptied (hempty : s.emptied = true) : toShutdown s = { s with
    unit := { s.unit with stage := some .shutdown }
    jrn := { s.jrn with staging := [⟨.unitControl, .shutdown, none⟩] } } := by
  obtain ⟨hstaging, hwaiters⟩ := journal_of_emptied hempty
  rw [toShutdown_joins hwaiters (by simp [hstaging]), hstaging, List.nil_append]

/-! ### SAFE is left (R167, R168) -/

/-- OPEN joins the staging queue, and the latch decides between WRITE_PROTECTED and ONLINE. -/
theorem leaveSafe_eq (hw : s.jrn.waiters = []) (hroom : s.jrn.staging.length < 16) : leaveSafe s = { s with
    unit := { s.unit with state := if s.map.latch = true then .writeProtected else .online, safeOrigin := none }
    jrn := { s.jrn with staging := s.jrn.staging ++ [⟨.unitControl, .opened, none⟩] }
    link := s.flagged .stateChanged } := by
  rw [leaveSafe, handOver_joins _ _ hw hroom]
  rfl

theorem mayResume_iff (s : State) : s.mayResume = true ↔
    s.unit.state = .safe ∧ s.unit.safeOrigin = some .prepareOff ∧ s.unit.holdUp = false := by
  simp [State.mayResume, and_assoc]

theorem exec_resume (tag : Byte) (s : State) : exec (.resume tag []) s = .next (settle
    (judge tag [] 0 State.mayResume always (fun t => respond tag .ok [] (leaveSafe t)) (beginHappening s))) := rfl

theorem exec_resume_badState (tag : Byte) (hr : s.unit.state ≠ .reset)
    (h : s.unit.state ≠ .safe ∨ s.unit.safeOrigin ≠ some .prepareOff ∨ s.unit.holdUp = true) :
    exec (.resume tag []) s = .next (settle (s.withResponse tag .badState [])) := by
  have hrefused : s.mayResume = false := by
    rw [Bool.eq_false_iff, Ne, mayResume_iff]
    rintro ⟨hsafe, horigin, hoff⟩
    simp [hsafe, horigin, hoff] at h
  rw [exec_resume, judge_badState, respond_beginHappening]
  exacts [hr, rfl, hrefused]

theorem exec_resume_leaves (tag : Byte) (hmay : s.mayResume = true) :
    exec (.resume tag []) s = .next (settle (respond tag .ok [] (leaveSafe (beginHappening s)))) := by
  obtain ⟨hsafe, -, -⟩ := (mayResume_iff s).mp hmay
  rw [exec_resume, judge_run]
  exacts [(by simp [hsafe]), rfl, hmay, rfl]

/-- RESTART outside ONLINE and WRITE_PROTECTED, the warning not asserted, makes the volatile reset at once (R156, R157). -/
theorem exec_restart_resets (tag : Byte) (hs : s.unit.state ∈ [.safe, .unformatted, .failed])
    (hoff : s.unit.holdUp = false) : exec (.restart tag []) s =
      .next (settle (respond tag .accepted [] (volatileReset (beginHappening s)))) := by
  have hs : s.unit.state = .safe ∨ s.unit.state = .unformatted ∨ s.unit.state = .failed := by simpa using hs
  obtain ⟨hidle, hreset⟩ : (beginHappening s).running = false ∧ s.unit.state ≠ .reset := by
    rcases hs with h | h | h <;> simp [State.running, h]
  have hmay : (beginHappening s).mayRestart = true := by
    simp [State.mayRestart, hs, hoff, or_assoc]
  have hrun : restartNow tag (beginHappening s) = respond tag .accepted [] (volatileReset (beginHappening s)) :=
    if_neg (Bool.eq_false_iff.mp hidle)
  rw [← hrun]
  exact congrArg (fun u => Host.Outcome.next (settle u)) (judge_run hreset rfl hmay rfl)

end

/-- Settles O42: each stage's end is enabled, and what it does is one step of the sequence. -/
theorem sequenceStagesFollowTheEmptying : Obligations.SequenceStagesFollowTheEmptying := by
  refine fun s => ⟨fun hs hstage hempty => ?_, fun hs hstage hempty => ?_, fun d hs hstage hidle hd => ?_⟩
  · have hend := drainLockEmptyingEnd?_some (s := beginHappening s) hs hstage hempty
    rw [toShutdown_emptied (s := beginHappening s) hempty] at hend
    exact congrArg (fun u => Host.Outcome.next (settle u)) (perform_of_some hend)
  · have hend := closingEmptyingEnd?_some (s := beginHappening s) hs hstage hempty
    exact congrArg (fun u => Host.Outcome.next (settle u)) (perform_of_some hend)
  · have hstart := closingCheckpointStart?_some (s := beginHappening s) hs hstage hidle
    rw [startCheckpoint_eq (s := beginHappening s) hd] at hstart
    exact congrArg (fun u => Host.Outcome.next (settle u)) (perform_of_some hstart)

/-- Settles O54: the checks of R183 with the commands' own conditions; then SAFE is left, or the volatile reset made. -/
theorem resumeAndRestartLeaveSafe : Obligations.ResumeAndRestartLeaveSafe := by
  refine ⟨fun tag s hr h => exec_resume_badState tag hr h,
    fun tag s hoff => ⟨fun hsafe horigin hw hroom => ?_, fun hs => ?_⟩⟩
  · rw [exec_resume_leaves tag ((mayResume_iff s).mpr ⟨hsafe, horigin, hoff⟩),
      leaveSafe_eq (s := beginHappening s) hw hroom]
    rfl
  · rw [exec_restart_resets tag hs hoff, volatileReset_eq (s := beginHappening s) hoff]
    rfl

end Sys2Proof.Machine
end

section
/-! SUPPORT. The hold-up warning: the entry to DRAIN_LOCK with what it ends, and the work of RECOVERING and FORMATTING
abandoned (R48, R79, R104, R134, R158, R159, R162). -/

namespace Sys2Proof.Machine

/-! ### Withdrawal of one requester's requests (R79) -/

section
variable {l : List MediaRequest} {c : MediaClass} {q : Requester} (h : ∀ r ∈ l, r.cls = c ↔ r.requester = q)
include h

/-- Where a class is one requester's alone, it no longer waits once that requester's requests are withdrawn. -/
theorem classWaits_withdrawn : classWaits c (l.filter fun r => r.requester ≠ q) = false := by
  rw [Bool.eq_false_iff, Ne, classWaits_iff]
  rintro ⟨r, hr, hc⟩
  obtain ⟨hr, hother⟩ := List.mem_filter.mp hr
  exact of_decide_eq_true hother ((h r hr).mp hc)

/-- Every other class waits as before. -/
theorem classWaits_kept {c' : MediaClass} (hne : c' ≠ c) :
    classWaits c' (l.filter fun r => r.requester ≠ q) = true ↔ ∃ r ∈ l, r.cls = c' := by
  rw [classWaits_iff]
  refine exists_congr fun r => ⟨fun ⟨hr, hc⟩ => ⟨List.mem_of_mem_filter hr, hc⟩, fun ⟨hr, hc⟩ => ⟨?_, hc⟩⟩
  refine List.mem_filter.mpr ⟨hr, decide_eq_true fun hq => hne ?_⟩
  exact hc.symm.trans ((h r hr).mpr hq)

end

/-! ### What the entry to DRAIN_LOCK ends (R104, R134) -/

section
variable {s : State}

theorem abortForDrainLock_of_commitWait (h : ∀ m, s.mig.current = some m → m.phase = .commitWait) :
    abortForDrainLock s = s := by
  cases hm : s.mig.current with
  | none => simp only [abortForDrainLock, hm]
  | some m => simp [abortForDrainLock, hm, Migration.abortable, h m hm]

theorem abortForDrainLock_takes {m : Migration} (hm : s.mig.current = some m) (hphase : m.phase ≠ .commitWait) :
    abortForDrainLock s = takeAbort s := by
  simp [abortForDrainLock, hm, Migration.abortable, hphase]

/-- An abandoned checkpoint: its waiting request is withdrawn, and its write in flight becomes an orphan's, whose outcome
changes nothing of the journal (R134). -/
theorem abandonCheckpoint_eq (hc : s.jrn.checkpoint ≠ none) (ha : s.media.arriving = [])
    (hcls : ∀ r ∈ s.media.waiting, r.cls = .checkpoint ↔ r.requester = .checkpoint) : abandonCheckpoint s = { s with
      jrn := { s.jrn with checkpoint := none }
      media := { s.media with
        waiting := s.media.waiting.filter fun r => r.requester ≠ .checkpoint
        inflight := s.media.inflight.map fun op =>
          if op.request.requester = .checkpoint then { op with request := { op.request with requester := .orphan } }
          else op
        promoCheckpoint := 0
        promoCopy := if ∃ r ∈ s.media.waiting, r.cls = .copy then s.media.promoCopy else 0 } } := by
  have hleft : (fun r : MediaRequest => !decide (r.requester = .checkpoint)) =
      fun r => decide (r.requester ≠ .checkpoint) :=
    funext fun r => (decide_not (p := r.requester = .checkpoint)).symm
  rw [abandonCheckpoint, if_pos (Option.isSome_iff_ne_none.mpr hc)]
  simp only [orphanCheckpoint, withdraw, State.setJrn_media, ha, List.filter_nil, List.append_nil, hleft,
    classWaits_withdrawn hcls, classWaits_kept hcls (c' := .copy) (by decide), Bool.false_eq_true, if_false]
  rw [← ha]
  rfl

/-! ### A READ behind a refused write (R48, R51, R53) -/

theorem removeHoldMarks_entry? (k : Nat) : (removeHoldMarks s).entry? k =
    (s.entry? k).map fun e => { e with migrationMark := false, failMark := false } :=
  List.getElem?_map

theorem removeHoldMarks_physicalOf (line : Nat) : (removeHoldMarks s).physicalOf line = s.physicalOf line := by
  rw [State.physicalOf, removeHoldMarks_entry?, Option.map_map]
  rfl

theorem removeHoldMarks_poisoned (line : Nat) : (removeHoldMarks s).poisoned line = s.poisoned line := by
  simp only [State.poisoned, removeHoldMarks_entry?]
  cases s.entry? (frameOf line) <;> rfl

/-- The write is refused, and the READ that it held is served from the medium. -/
theorem refuseWaiting_write_read {w r : TagEntry} (hentries : s.host.entries = [w, r]) (htags : w.tag ≠ r.tag)
    (hw : w.kind = .write) (hwaits : w.standing = .waiting) (hr : r.kind = .read) (hrwaits : r.standing = .waiting)
    (hslot : s.slot? r.line = none) (hlosing : s.losing r.line = false) (hpoison : s.poisoned r.line = false)
    (hf : s.unit.state ≠ .failed) (hreset : s.unit.state ≠ .reset) : refuseWaiting s = { s with
      out := { s.out with host := s.out.host ++ [⟨w.tag, .refused, zeroLine⟩] }
      host := { s.host with entries := [{ r with standing := .reading false }] }
      media := { s.media with
        arriving := s.media.arriving ++ [⟨.hostRead, .host r.tag, .read, s.physicalOf r.line⟩] } } := by
  have hwrites : s.host.entries.filter TagEntry.waitingWrite = [w] := by
    simp [hentries, TagEntry.waitingWrite, TagEntry.waits, hw, hwaits, hr]
  obtain ⟨t, ht⟩ : ∃ t, t = answer w.tag .refused zeroLine s := ⟨_, rfl⟩
  have hleft : t.host.entries = [r] := by
    simp [ht, answer, sendHost, removeEntry, State.setHost, hentries, htags.symm]
  have hreads : t.host.entries.filter TagEntry.waits = [r] := by
    simp [hleft, TagEntry.waits, hrwaits]
  have hserved : takeRequest r t =
      request (hostReadRequest r.tag (t.physicalOf r.line)) (setStanding r.tag (.reading false) t) := by
    simp only [takeRequest, hr]
    subst ht
    exact serveRead_medium r.tag (fun sl h => nomatch hslot.symm.trans h) hlosing hpoison
  rw [refuseWaiting, hwrites, List.foldl_cons, List.foldl_nil, ← ht]
  dsimp only
  rw [hreads, List.foldl_cons, List.foldl_nil, hserved, setStanding, hleft, List.map_singleton, if_pos rfl, request_eq,
    ht, answer, sendHost_eq (.inr rfl)]
  · rfl
  · exact ht ▸ hf
  · exact ht ▸ hreset

end

/-! ### The entry to DRAIN_LOCK (R159) -/

/-- The state in which DRAIN_LOCK is entered and the queue emptied, before anything is aborted, abandoned or refused. -/
def State.lockEntered (s : State) : State :=
  { s with
    unit := { s.unit with state := .drainLock, restartPending := false, stage := some s.drainLockStage }
    mig := { s.mig with retireQueue := [], backQueue := [] }
    link := s.flagged .stateChanged }

theorem drainLockStage_eq (s : State) : s.drainLockStage =
    if s.unit.state = .closing ∧ s.unit.stage = some .shutdown then .shutdown else .emptying := by
  simp [State.drainLockStage]

section
variable {s : State}

theorem enterDrainLock_eq (s : State) : enterDrainLock s =
    refuseWaiting (removeHoldMarks (abandonCheckpoint (abortForDrainLock s.lockEntered))) := rfl

/-- With nothing to abort and no checkpoint in progress, what is left is the refusal of the waiting writes. -/
theorem enterDrainLock_refuses (hmig : ∀ m, s.mig.current = some m → m.phase = .commitWait)
    (hidle : s.jrn.checkpoint = none) : enterDrainLock s = refuseWaiting (removeHoldMarks s.lockEntered) := by
  rw [enterDrainLock_eq, abortForDrainLock_of_commitWait (s := s.lockEntered) hmig,
    abandonCheckpoint_of_none (s := s.lockEntered) hidle]

/-- With no request waiting and no checkpoint in progress, a migration in QUIESCE or COPY takes its abort (R104). -/
theorem enterDrainLock_aborts {m : Migration} (hnone : ∀ e ∈ s.host.entries, e.standing ≠ .waiting)
    (hm : s.mig.current = some m) (hphase : m.phase ≠ .commitWait) (hidle : s.jrn.checkpoint = none)
    (ha : s.media.arriving = []) (hcls : ∀ r ∈ s.media.waiting, r.cls = .copy ↔ r.requester = .engine) :
    enterDrainLock s = { removeHoldMarks s.lockEntered with
      mig := { s.mig with retireQueue := [], backQueue := [], current := some { m with abortPending := true } }
      media := { s.media with
        waiting := s.media.waiting.filter fun r => r.requester ≠ .engine
        promoCheckpoint := if ∃ r ∈ s.media.waiting, r.cls = .checkpoint then s.media.promoCheckpoint else 0
        promoCopy := 0 } } := by
  rw [enterDrainLock_eq, abortForDrainLock_takes (s := s.lockEntered) hm hphase,
    takeAbort_eq (s := s.lockEntered) hcls hm ha, abandonCheckpoint_of_none, refuseWaiting_of_none]
  exacts [rfl, hnone, hidle]

/-- With no request waiting and nothing to abort, a checkpoint in progress is abandoned (R134). -/
theorem enterDrainLock_abandons (hnone : ∀ e ∈ s.host.entries, e.standing ≠ .waiting)
    (hmig : ∀ m, s.mig.current = some m → m.phase = .commitWait) (hc : s.jrn.checkpoint ≠ none)
    (ha : s.media.arriving = [])
    (hcls : ∀ r ∈ s.media.waiting, r.cls = .checkpoint ↔ r.requester = .checkpoint) :
    enterDrainLock s = { removeHoldMarks s.lockEntered with
      jrn := { s.jrn with checkpoint := none }
      media := { s.media with
        waiting := s.media.waiting.filter fun r => r.requester ≠ .checkpoint
        inflight := s.media.inflight.map fun op =>
          if op.request.requester = .checkpoint then { op with request := { op.request with requester := .orphan } }
          else op
        promoCheckpoint := 0
        promoCopy := if ∃ r ∈ s.media.waiting, r.cls = .copy then s.media.promoCopy else 0 } } := by
  rw [enterDrainLock_eq, abortForDrainLock_of_commitWait (s := s.lockEntered) hmig,
    abandonCheckpoint_eq (s := s.lockEntered) hc ha hcls, refuseWaiting_of_none]
  exacts [rfl, hnone]

/-! ### RECOVERING and FORMATTING (R162) -/

/-- With Unit Control's requests alone waiting, its work is abandoned and SAFE entered, the tables unloaded. -/
theorem abandonToSafe_unitWork (ha : s.media.arriving = [])
    (hown : ∀ r ∈ s.media.waiting, r.requester = .unitControl) : abandonToSafe s = { s with
      unit := { s.unit with
        state := .safe, safeOrigin := some .drainLock, standing := none, geometry := none, format := none
        recovery := none }
      map := MapController.unloaded
      media := { s.media with
        waiting := [], promoCheckpoint := 0, promoCopy := 0
        inflight := s.media.inflight.filter fun op => op.request.requester ≠ .unitControl }
      link := s.flagged .stateChanged } := by
  have hwaiting : s.media.waiting.filter (fun r => !decide (r.requester = .unitControl)) = [] :=
    List.filter_eq_nil_iff.mpr fun r hr => by simp [hown r hr]
  have hwork : abandonUnitWork s = s.setMedia { s.media with
      waiting := [], promoCheckpoint := 0, promoCopy := 0
      inflight := s.media.inflight.filter fun op => op.request.requester ≠ .unitControl } := by
    simp [abandonUnitWork, withdraw, classWaits, hwaiting, ha, State.setMedia]
  rw [abandonToSafe, hwork]
  rfl

/-! ### The two pin commands (R158, R167) -/

/-- The state in which the level of the warning is taken, at the start of a happening. -/
def State.levelTaken (s : State) (level : Bool) : State :=
  { s with out := Outputs.none, unit := { s.unit with holdUp := level } }

theorem exec_holdUpAssert_again (hon : s.unit.holdUp = true) :
    exec .holdUpAssert s = .next (settle (beginHappening s)) :=
  congrArg (fun u => Host.Outcome.next (settle u)) (if_pos hon)

theorem exec_holdUpAssert (hoff : s.unit.holdUp = false) :
    exec .holdUpAssert s = .next (settle (warningAsserted (s.levelTaken true))) :=
  congrArg (fun u => Host.Outcome.next (settle u)) (if_neg (Bool.eq_false_iff.mp hoff))

theorem exec_holdUpDeassert_again (hoff : s.unit.holdUp = false) :
    exec .holdUpDeassert s = .next (settle (beginHappening s)) :=
  congrArg (fun u => Host.Outcome.next (settle u)) (if_neg (Bool.eq_false_iff.mp hoff))

theorem exec_holdUpDeassert (hon : s.unit.holdUp = true) : exec .holdUpDeassert s = .next (settle
    (if s.unit.state = .safe && s.unit.safeOrigin = some .drainLock then leaveSafeDrainLock (s.levelTaken false)
    else s.levelTaken false)) :=
  congrArg (fun u => Host.Outcome.next (settle u)) (if_pos hon)

theorem exec_holdUpDeassert_leaves (hon : s.unit.holdUp = true) (hsafe : s.unit.state = .safe)
    (horigin : s.unit.safeOrigin = some .drainLock) :
    exec .holdUpDeassert s = .next (settle (leaveSafeDrainLock (s.levelTaken false))) := by
  rw [exec_holdUpDeassert hon, if_pos (by simp [hsafe, horigin])]

theorem exec_holdUpDeassert_elsewhere (hon : s.unit.holdUp = true)
    (h : s.unit.state ≠ .safe ∨ s.unit.safeOrigin ≠ some .drainLock) :
    exec .holdUpDeassert s = .next (settle (s.levelTaken false)) := by
  rw [exec_holdUpDeassert hon, if_neg]
  simpa [imp_iff_not_or] using h

/-! ### The warning by unit state (Table 9.1) -/

theorem warningAsserted_locks (hs : s.unit.state ∈ [.online, .writeProtected, .closing]) :
    warningAsserted s = enterDrainLock s := by
  have hs : s.unit.state = .online ∨ s.unit.state = .writeProtected ∨ s.unit.state = .closing := by simpa using hs
  rcases hs with h | h | h <;> simp only [warningAsserted, h]

theorem warningAsserted_abandons (hs : s.unit.state ∈ [.recovering, .formatting]) :
    warningAsserted s = abandonToSafe s := by
  have hs : s.unit.state = .recovering ∨ s.unit.state = .formatting := by simpa using hs
  rcases hs with h | h <;> simp only [warningAsserted, h]

theorem warningAsserted_level (hs : s.unit.state ∈ [.reset, .drainLock, .safe, .unformatted, .failed]) :
    warningAsserted s = s := by
  have hs : s.unit.state = .reset ∨ s.unit.state = .drainLock ∨ s.unit.state = .safe ∨ s.unit.state = .unformatted ∨
      s.unit.state = .failed := by simpa using hs
  rcases hs with h | h | h | h | h <;> simp only [warningAsserted, h]

end

/-- Settles O15: the level is taken, and then Table 9.1 or R167 applies by the unit state. -/
theorem holdUpWarningActsByUnitState : Obligations.HoldUpWarningActsByUnitState := by
  refine ⟨fun s => ⟨exec_holdUpAssert_again, fun hoff hs => ?_, fun hoff hs u hu => ?_, fun hoff hs ha hown => ?_⟩,
    fun s => ⟨fun hon hsafe horigin hl hw hroom => ?_, fun hon hsafe horigin hl => ?_,
      exec_holdUpDeassert_elsewhere, exec_holdUpDeassert_again⟩⟩
  · rw [exec_holdUpAssert hoff, warningAsserted_level (s := s.levelTaken true) hs]
    rfl
  · have hexec : exec .holdUpAssert s = .next (settle (enterDrainLock (s.levelTaken true))) := by
      rw [exec_holdUpAssert hoff, warningAsserted_locks (s := s.levelTaken true) hs]
    have hu : u = removeHoldMarks (s.levelTaken true).lockEntered := by
      rw [hu, State.lockEntered, drainLockStage_eq]
      rfl
    rw [hexec, hu]
    refine ⟨fun hmig hidle => ?_, fun m hnone hm hphase hidle ha hcls => ?_, fun hnone hmig hc ha hcls => ?_⟩
    · rw [enterDrainLock_refuses (s := s.levelTaken true) hmig hidle]
      refine ⟨fun hnone => ?_, fun htags hwrites => ?_,
        fun w r hentries htags hw hwaits hr hrwaits hslot hlosing hpoison => ?_⟩
      · rw [refuseWaiting_of_none]
        exact hnone
      · rw [refuseWaiting_eq]
        exacts [rfl, htags, hwrites]
      · have hpoison := (removeHoldMarks_poisoned (s := (s.levelTaken true).lockEntered) r.line).trans hpoison
        rw [refuseWaiting_write_read (s := removeHoldMarks (s.levelTaken true).lockEntered) hentries htags hw hwaits hr
          hrwaits hslot hlosing hpoison nofun nofun, removeHoldMarks_physicalOf]
        rfl
    · rw [enterDrainLock_aborts (s := s.levelTaken true) hnone hm hphase hidle ha hcls]
      rfl
    · rw [enterDrainLock_abandons (s := s.levelTaken true) hnone hmig hc ha hcls]
      rfl
  · rw [exec_holdUpAssert hoff, warningAsserted_abandons (s := s.levelTaken true) hs,
      abandonToSafe_unitWork (s := s.levelTaken true) ha hown]
    rfl
  · rw [exec_holdUpDeassert_leaves hon hsafe horigin, leaveSafeDrainLock, if_pos (by exact hl),
      leaveSafe_eq (s := s.levelTaken false) hw hroom]
    rfl
  · rw [exec_holdUpDeassert_leaves hon hsafe horigin, leaveSafeDrainLock,
      if_neg (by exact Bool.eq_false_iff.mp hl), startRecovery_eq (s := s.levelTaken false) rfl]
    rfl

end Sys2Proof.Machine
end

section
/-! SUPPORT. The settings: their commit, and the link's commands that stage, discard and commit them (R30, R174 to R177). -/

namespace Sys2Proof.Machine

/-! ### The settings commit (R30, R176, R177) -/

section
variable {s : State}

/-- The state with the staged set in force: pressure mode is judged on its watermarks (R177). -/
def State.installed (s : State) : State :=
  { s with
    time := { s.time with active := s.time.staged }
    buf := { s.buf with
      pressure :=
        if s.buf.pressure = true then decide (s.time.staged.lowWater < s.buf.slots.length)
        else decide (s.time.staged.highWater ≤ s.buf.slots.length) }
    link := s.flagged .settingsCommitted }

theorem installSettings_eq (s : State) : installSettings s = s.installed := by
  simp only [installSettings, evalPressure, pressureAfter_eq]
  rfl

theorem commitRejected_iff (s : State) :
    s.commitRejected = true ↔ s.time.staged ≠ s.time.active ∧ s.time.staged.highWater ≤ s.time.staged.lowWater := by
  simp [State.commitRejected]

theorem commitSettingsNow_equal (h : s.time.staged = s.time.active) : commitSettingsNow s = s := if_pos h

theorem commitSettingsNow_rejects (hne : s.time.staged ≠ s.time.active)
    (hle : s.time.staged.highWater ≤ s.time.staged.lowWater) :
    commitSettingsNow s = raise .settingsRejected s := by
  rw [commitSettingsNow, if_neg hne, if_pos ((commitRejected_iff s).mpr ⟨hne, hle⟩)]

theorem commitSettingsNow_installs (hne : s.time.staged ≠ s.time.active)
    (hlt : s.time.staged.lowWater < s.time.staged.highWater) : commitSettingsNow s = s.installed := by
  have hpasses : ¬s.commitRejected = true := fun h => absurd ((commitRejected_iff s).mp h).2 (Nat.not_le.mpr hlt)
  rw [commitSettingsNow, if_neg hne, if_neg hpasses, installSettings_eq]

end

/-! ### STAGE_SETTING, DISCARD_STAGED, COMMIT_SETTINGS (R175, R176) -/

/-- The setting commands are judged in the states that accept changes (R175). -/
theorem mayStage_of_mem {s : State} (h : s.unit.state ∈ [.online, .writeProtected, .safe, .unformatted, .failed]) :
    s.unit.state ≠ .reset ∧ s.mayStage = true := by
  have h : s.unit.state = .online ∨ s.unit.state = .writeProtected ∨ s.unit.state = .safe ∨
      s.unit.state = .unformatted ∨ s.unit.state = .failed := by simpa using h
  rcases h with h | h | h | h | h <;> simp [State.mayStage, State.linkBlocked, h]

theorem settingId_eq (id v0 v1 v2 v3 : Byte) : paramField [id, v0, v1, v2, v3] 0 1 = id.toNat := by
  simp [paramField, leValue]

theorem settingValue_eq (id v0 v1 v2 v3 : Byte) : paramField [id, v0, v1, v2, v3] 1 4 =
    v0.toNat + 256 * (v1.toNat + 256 * (v2.toNat + 256 * v3.toNat)) := by
  simp [paramField, leValue]

theorem exec_stageSetting (tag id v0 v1 v2 v3 : Byte) (s : State) {v : Nat}
    (hv : v = v0.toNat + 256 * (v1.toNat + 256 * (v2.toNat + 256 * v3.toNat))) :
    exec (.stageSetting tag [id, v0, v1, v2, v3]) s =
      .next (judge tag [id, v0, v1, v2, v3] 5 State.mayStage (fun _ => settingInRange id.toNat v)
        (fun t => respond tag .ok [] (t.setTime { t.time with staged := t.time.staged.put id.toNat v }))
        (beginHappening s)) := by
  rw [hv, ← settingValue_eq id, ← settingId_eq id v0 v1 v2 v3]
  rfl

theorem exec_commitSettings (tag : Byte) {s : State} (hr : s.unit.state ≠ .reset) (hp : s.mayStage = true) :
    exec (.commitSettings tag []) s = .next (settle (respond tag (if s.commitRejected then .badArg else .ok) []
      (commitSettingsNow (beginHappening s)))) :=
  congrArg (fun u => Host.Outcome.next (settle u)) (judge_run (s := beginHappening s) hr rfl hp rfl)

/-- Settles O49: each command passes the checks of R183, and a commit goes the way of R176. -/
theorem settingCommandsStageCommitAndDiscard : Obligations.SettingCommandsStageCommitAndDiscard := by
  intro tag id v0 v1 v2 v3 s hs v hv
  obtain ⟨hr, hp⟩ := mayStage_of_mem hs
  refine ⟨fun hrange => ?_, fun hrange => ?_, ?_, fun hequal => ?_, fun hne hlt => ?_, fun hne hle => ?_⟩
  · rw [exec_stageSetting tag id v0 v1 v2 v3 s hv, judge_run]
    exacts [rfl, hr, rfl, hp, hrange]
  · rw [exec_stageSetting tag id v0 v1 v2 v3 s hv, judge_badArg, respond_beginHappening]
    exacts [hr, rfl, hp, hrange]
  · exact congrArg Host.Outcome.next (judge_run (s := beginHappening s) hr rfl hp rfl)
  · have hpasses : ¬s.commitRejected = true := fun h => absurd hequal ((commitRejected_iff s).mp h).1
    rw [exec_commitSettings tag hr hp, if_neg hpasses, commitSettingsNow_equal (s := beginHappening s) hequal,
      respond_beginHappening]
  · have hpasses : ¬s.commitRejected = true := fun h => absurd ((commitRejected_iff s).mp h).2 (Nat.not_le.mpr hlt)
    rw [exec_commitSettings tag hr hp, if_neg hpasses, commitSettingsNow_installs (s := beginHappening s) hne hlt]
    rfl
  · rw [exec_commitSettings tag hr hp, if_pos ((commitRejected_iff s).mpr ⟨hne, hle⟩),
      commitSettingsNow_rejects (s := beginHappening s) hne hle]
    rfl

end Sys2Proof.Machine
end

section
/-! SUPPORT. The tick on an empty queue, and the commands that time brings (R26, R28, R75, R170, R171; log entry 2). -/

namespace Sys2Proof.Machine

/-! ### What a tick brings -/

theorem needsClamp_iff (now : Word32) (sl : Slot) : needsClamp now sl = true ↔
    (now - sl.stamp).toNat = 2 ^ 30 ∨ sl.redirty.any (fun m => (now - m.tick).toNat = 2 ^ 30) = true := by
  rw [needsClamp, Bool.or_eq_true, decide_eq_true_iff]
  cases sl.redirty <;> exact Iff.rfl

theorem reachesDrainAge_iff (s : State) (sl : Slot) : reachesDrainAge s sl = true ↔
    sl.draining = false ∧ (s.time.tick - sl.stamp).toNat = s.time.active.drainAge := by
  rw [reachesDrainAge, Bool.and_eq_true, Bool.not_eq_true', decide_eq_true_iff]
  exact Iff.rfl

theorem overdueAttempt?_isSome_iff (s : State) (p : Fin 8) : (s.overdueAttempt? p).isSome = true ↔
    ∃ op ∈ s.media.inflight, op.id.place = p ∧ op.limit ≤ (s.time.tick - op.sent).toNat := by
  simp only [State.overdueAttempt?, List.find?_isSome, Bool.and_eq_true, decide_eq_true_eq]
  exact Iff.rfl

/-- Tests that agree on a list's elements select the same of them. -/
theorem filter_of_iff {α : Type} {p : α → Bool} {q : α → Prop} [DecidablePred q] (h : ∀ x, p x = true ↔ q x)
    (l : List α) : l.filter p = l.filter fun x => decide (q x) :=
  List.filter_congr fun x _ => Bool.eq_iff_iff.mpr ((h x).trans decide_eq_true_iff.symm)

/-- The commands that time brings, outside RESET, each by its own rule. -/
theorem timeCommands_eq {s : State} (hr : s.unit.state ≠ .reset) : timeCommands s =
    ((s.buf.slots.filter fun sl => (s.time.tick - sl.stamp).toNat = 2 ^ 30 ∨
        sl.redirty.any (fun m => (s.time.tick - m.tick).toNat = 2 ^ 30)).map fun sl => .stampAgeClamp sl.line) ++
      ((s.buf.slots.filter fun sl => sl.draining = false ∧
        (s.time.tick - sl.stamp).toNat = s.time.active.drainAge).map fun sl => .drainAgeReached sl.line) ++
      (((List.finRange 8).filter fun p => ∃ op ∈ s.media.inflight, op.id.place = p ∧
        op.limit ≤ (s.time.tick - op.sent).toNat).map .attemptTimeout) ++
      (if s.time.tick = s.time.nextBoundary then [Instr.sweepBoundary] else []) := by
  rw [timeCommands, filter_of_iff (needsClamp_iff _), filter_of_iff (reachesDrainAge_iff s),
    filter_of_iff (overdueAttempt?_isSome_iff s)]
  simp [State.boundaryFalls, hr]

theorem tick_reset {s : State} (hr : s.unit.state = .reset) : tick s = s := if_pos hr

/-- The counter one tick on, with nothing leaving the ports (R170). -/
def State.ticked (s : State) : State :=
  { s with out := Outputs.none, time := { s.time with tick := s.time.tick + 1 } }

theorem tick_counts {s : State} (hr : s.unit.state ≠ .reset) :
    tick s = s.ticked.setPending (s.pending ++ timeCommands s.ticked) := if_neg hr

theorem step_of_emptyQueue {s : State} (h : s.pending = []) : step s = .next (tick s) := by
  simp only [step, h]

/-- Settles O2: the step is the tick, and what time brings is what each rule tests. -/
theorem emptyQueueTicksTheCounter : Obligations.EmptyQueueTicksTheCounter := by
  intro s hempty
  rw [step_of_emptyQueue hempty]
  refine ⟨fun hr => by rw [tick_reset hr], ?_⟩
  rintro hr now clamps ages deadlines rfl rfl rfl rfl q hq
  refine ⟨?_, ?_⟩
  · rw [tick_counts hr, hempty, timeCommands_eq (s := s.ticked) hr, hq]
    rfl
  · subst hq
    simp

end Sys2Proof.Machine
end

section
/-! SUPPORT. SWEEP_BOUNDARY where no sweep is made: the settings commit, the next boundary, and the ring trigger of CLOSING
(R128, R171, R172, R176). -/

namespace Sys2Proof.Machine

variable {s : State}

theorem exec_sweepBoundary (s : State) : exec .sweepBoundary s = .next (settle
    (if s.boundaryFalls then boundaryWork (beginHappening s) else beginHappening s)) := rfl

theorem boundaryFalls_iff (s : State) :
    s.boundaryFalls = true ↔ s.unit.state ≠ .reset ∧ s.time.tick = s.time.nextBoundary := by
  simp [State.boundaryFalls]

/-- The next boundary lies one SweepPeriod of the settings in force after this one (R171). -/
def State.paced (s : State) : State :=
  { s with time := { s.time with
      nextBoundary := s.time.nextBoundary + BitVec.ofNat 32 s.time.active.sweepPeriod } }

theorem boundaryCommit_recovering (hs : s.unit.state = .recovering) : boundaryCommit s = s.paced := by
  simp only [boundaryCommit, if_pos hs]
  rfl

theorem boundaryCommit_equal (h : s.time.staged = s.time.active) : boundaryCommit s = s.paced := by
  simp only [boundaryCommit, commitSettingsNow_equal h, ite_self]
  rfl

theorem boundaryCommit_installs (hs : s.unit.state ≠ .recovering) (hne : s.time.staged ≠ s.time.active)
    (hlt : s.time.staged.lowWater < s.time.staged.highWater) : boundaryCommit s = s.installed.paced := by
  simp only [boundaryCommit, if_neg hs, commitSettingsNow_installs hne hlt]
  rfl

theorem boundaryCommit_rejects (hs : s.unit.state ≠ .recovering) (hne : s.time.staged ≠ s.time.active)
    (hle : s.time.staged.highWater ≤ s.time.staged.lowWater) :
    boundaryCommit s = (raise .settingsRejected s).paced := by
  simp only [boundaryCommit, if_neg hs, commitSettingsNow_rejects hne hle]
  rfl

/-- Outside service a boundary's work is the commit, and the ring trigger, which starts a checkpoint in CLOSING alone
(R128, R172). -/
theorem boundaryWork_outside (hs : s.running = false) : boundaryWork s = ringTrigger (boundaryCommit s) := by
  have ht : (boundaryCommit s).running = false := by simp [State.running, ← hs]
  simp [boundaryWork, boundarySweep, ht]

theorem ringTrigger_outside (hs : s.running = false) (hc : s.unit.state ≠ .closing) : ringTrigger s = s :=
  ringTrigger_passes fun ⟨_, hstate, _⟩ => hstate.elim (by simp [hs]) hc

variable {t : State}

/-- The Journal Controller after the ring trigger outside service (R128). -/
def State.closingTriggered (s : State) (d : Descriptor) : JournalController :=
  if s.unit.state = .closing ∧ 1536 ≤ s.ringUsed ∧ s.jrn.checkpoint = none then
    { s.jrn with checkpoint := some (startingCheckpoint d false) }
  else s.jrn

/-- The commit touches nothing that the ring trigger reads. -/
theorem ringTrigger_closingTriggered {d : Descriptor} (hs : s.running = false)
    (hd : s.unit.state = .closing → s.jrn.descriptor = some d) (hunit : t.unit = s.unit) (hjrn : t.jrn = s.jrn) :
    ringTrigger t = t.setJrn (s.closingTriggered d) := by
  have hrunning : t.running = false := by rw [State.running, hunit]; exact hs
  have hused : t.ringUsed = s.ringUsed := by rw [State.ringUsed, hjrn]; rfl
  unfold State.closingTriggered
  split
  · rename_i h
    obtain ⟨hc, h1536, hidle⟩ := h
    rw [ringTrigger_starts ⟨hused ▸ h1536, .inr (hunit ▸ hc), hjrn ▸ hidle⟩, startCheckpoint_eq (hjrn ▸ hd hc), hjrn]
  · rename_i h
    rw [← hjrn]
    refine ringTrigger_passes fun ⟨h1536, hstate, hidle⟩ => h ⟨?_, hused ▸ h1536, hjrn ▸ hidle⟩
    simpa [hrunning, hunit] using hstate

theorem exec_sweepBoundary_falls (hr : s.unit.state ≠ .reset) (hf : s.time.tick = s.time.nextBoundary) :
    exec .sweepBoundary s = .next (settle (boundaryWork (beginHappening s))) := by
  rw [exec_sweepBoundary, if_pos ((boundaryFalls_iff s).mpr ⟨hr, hf⟩)]

/-- The states outside service in which a settings commit is made (R172). -/
theorem not_running_of_mem
    (h : s.unit.state ∈ [.safe, .unformatted, .formatting, .failed, .drainLock, .closing]) :
    s.unit.state ≠ .reset ∧ s.unit.state ≠ .recovering ∧ s.running = false := by
  have h : s.unit.state = .safe ∨ s.unit.state = .unformatted ∨ s.unit.state = .formatting ∨ s.unit.state = .failed ∨
      s.unit.state = .drainLock ∨ s.unit.state = .closing := by simpa using h
  rcases h with h | h | h | h | h | h <;> simp [State.running, h]

/-- Settles O16: the boundary does not fall, or its work outside service is the commit, the next boundary and the ring
trigger of CLOSING. -/
theorem sweepBoundaryOutsideServiceCommitsSettingsAlone :
    Obligations.SweepBoundaryOutsideServiceCommitsSettingsAlone := by
  refine fun s => ⟨fun h => ?_, fun hf hs => ?_, ?_⟩
  · have hnot : ¬s.boundaryFalls = true := fun hfalls => by
      obtain ⟨hr, hf⟩ := (boundaryFalls_iff s).mp hfalls
      exact h.elim (absurd hf) hr
    rw [exec_sweepBoundary, if_neg hnot]
    rfl
  · have hidle : (beginHappening s).running = false := by simp [State.running, hs]
    have hopen : (beginHappening s).paced.unit.state ≠ .closing := by simp [State.paced, hs]
    rw [exec_sweepBoundary_falls (by simp [hs]) hf, boundaryWork_outside hidle,
      boundaryCommit_recovering (s := beginHappening s) hs, ringTrigger_outside (s := (beginHappening s).paced) hidle hopen]
    rfl
  · rintro d _ _ hf hs hd rfl rfl
    obtain ⟨hr, hrec, hidle⟩ := not_running_of_mem hs
    rw [exec_sweepBoundary_falls hr hf, boundaryWork_outside (s := beginHappening s) hidle]
    refine ⟨fun hequal => ?_, fun hne hlt => ?_, fun hne hle => ?_⟩
    · rw [boundaryCommit_equal (s := beginHappening s) hequal,
        ringTrigger_closingTriggered (t := (beginHappening s).paced) hidle hd rfl rfl]
      rfl
    · rw [boundaryCommit_installs (s := beginHappening s) hrec hne hlt,
        ringTrigger_closingTriggered (t := (beginHappening s).installed.paced) hidle hd rfl rfl]
      rfl
    · rw [boundaryCommit_rejects (s := beginHappening s) hrec hne hle,
        ringTrigger_closingTriggered (t := (raise .settingsRejected (beginHappening s)).paced) hidle hd rfl rfl]
      rfl

end Sys2Proof.Machine
end

section
/-! SUPPORT. What every command does to the time base: the counter, the held boundary and the two setting sets (R144, R157, R170,
R171, R175, R176). -/

namespace Sys2Proof.Machine

set_option Elab.async false

/-! ### The changes of the time base -/

/-- From s to t the counter, the held boundary and both setting sets stand; the sweep count may move (R173). -/
structure TimeStands (s t : State) : Prop where
  tick : t.time.tick = s.time.tick
  boundary : t.time.nextBoundary = s.time.nextBoundary
  active : t.time.active = s.time.active
  staged : t.time.staged = s.time.staged

/-- From s to t the active set stands, or is the staged set with its watermarks in order (R176). -/
def ActiveCommits (s t : State) : Prop :=
  t.time.active = s.time.active ∨
    (t.time.active = s.time.staged ∧ s.time.staged.lowWater < s.time.staged.highWater)

/-- What a command does to the time base, from s to t. -/
inductive TimeStep (c : Instr) (s t : State) : Prop where
  | stands (h : TimeStands s t)
  | stages (x : Settings) (h : t.time = { s.time with staged := x }) (hx : s.SettingsSound → x.inRange = true)
  | commits (hc : c = .sweepBoundary ∨ ∃ tag params, c = .commitSettings tag params)
      (htick : t.time.tick = s.time.tick)
      (hboundary : t.time.nextBoundary = s.time.nextBoundary ∨ c = .sweepBoundary)
      (hactive : ActiveCommits s t) (hstaged : t.time.staged = s.time.staged)
  | resets (hc : ResetBy c s t) (h : t.time = State.reset.time)
  | releases (hc : ∃ v a, c = .resetRelease v a ∧ s.unit.state = .reset)
      (h : t.time = { s.time with tick := 0#32, nextBoundary := 1000000#32 })

variable {s t u : State} {c : Instr}

theorem TimeStands.of_eq (h : t.time = s.time) : TimeStands s t :=
  ⟨congrArg (·.tick) h, congrArg (·.nextBoundary) h, congrArg (·.active) h, congrArg (·.staged) h⟩

theorem TimeStands.trans (h : TimeStands s t) (k : TimeStands t u) : TimeStands s u :=
  ⟨k.tick.trans h.tick, k.boundary.trans h.boundary, k.active.trans h.active, k.staged.trans h.staged⟩

/-- A command that leaves the time base as it is, with the one state its outcome names. -/
theorem TimeStep.same {v : State} (h : (Host.Outcome.next v : Host.Outcome State Fault Refusal) = .next t)
    (hv : v.time = s.time) : TimeStep c s t := by
  cases h
  exact .stands (.of_eq hv)

/-! ### Happenings -/

theorem happening_time (body : State → State) (s : State) :
    (happening body s).time = (body (beginHappening s)).time := (settle_frame _).1

theorem happening_time_eq {body : State → State} (hbody : ∀ u, (body u).time = u.time) :
    (happening body s).time = s.time := (happening_time body s).trans (hbody _)

theorem happening_timeStands {body : State → State} (hbody : ∀ u, TimeStands u (body u)) :
    TimeStands s (happening body s) :=
  have hbegun : TimeStands s (body (beginHappening s)) := TimeStands.trans (t := beginHappening s) (.of_eq rfl) (hbody _)
  hbegun.trans (.of_eq (happening_time body s))

/-- The rest of a happening keeps the unit state, but in ONLINE (R142). -/
theorem settle_state (h : s.unit.state ≠ .online) : (settle s).unit.state = s.unit.state :=
  (settle_follows s).state.resolve_right fun hs => h hs.1

theorem followUp_time {e : State → Option State} (he : e ∈ followUps) (h : e s = some t) : t.time = s.time := by
  fin_cases he
  · simp [abortComplete?_frame s h]
  · simp [migrationSwitch?_frame s h]
  · simp [creatorJoin?_frame s h]
  · simp [flushDone?_frame s h]
  · simp [persistDone?_frame s h]
  · simp [waitQueueTake?_frame s h]
  · simp [persistTake?_frame s h]
  · simp [migrationTake?_frame s h]
  · simp [quiesceEnd?_frame s h]
  · simp [lateCopyStart?_frame s h]
  · simp [drainLockEmptyingEnd?_frame s h]
  · simp [closingEmptyingEnd?_frame s h]
  · simp [closingCheckpointStart?_frame s h]
  · simp [imageFix?_frame s h]
  · simp [recordIssue?_frame s h]
  · simp [drainIssue?_frame s h]

/-- A follow-up event commanded by name (log entry 3). -/
theorem performed_time {e : State → Option State} (he : e ∈ followUps := by simp [followUps]) :
    (happening (perform e) s).time = s.time := by
  refine happening_time_eq fun u => ?_
  unfold perform
  cases h : e u with
  | none => rfl
  | some v => exact followUp_time he h

theorem judge_time {tag : Byte} {params : List Byte} {len : Nat} {permitted argsOk : State → Bool}
    {run : State → State} (hrun : (run s).time = s.time) :
    (judge tag params len permitted argsOk run s).time = s.time := by
  rcases judge_cases tag params len permitted argsOk run s with
    ⟨-, he⟩ | ⟨-, he⟩ | ⟨-, -, he⟩ | ⟨-, -, -, he⟩ | ⟨-, -, -, he⟩ <;> rw [he]
  · simp
  · simp
  · simp
  · exact hrun

/-- A request executed in a happening. -/
theorem judged_time {tag : Byte} {params : List Byte} {len : Nat} {permitted argsOk : State → Bool}
    {run : State → State} (hrun : ∀ u, (run u).time = u.time) :
    (happening (judge tag params len permitted argsOk run) s).time = s.time :=
  happening_time_eq fun u => judge_time (hrun u)

/-- A request whose happening is its execution alone (log entry 1). -/
theorem judgeBegun_time {tag : Byte} {params : List Byte} {len : Nat} {permitted argsOk : State → Bool}
    {run : State → State} (hrun : ∀ u, (run u).time = u.time) :
    (judge tag params len permitted argsOk run (beginHappening s)).time = s.time := judge_time (hrun _)

/-! ### The resets (R144, R156, R157) -/

theorem volatileReset_time (s : State) : (volatileReset s).time = State.reset.time := by simp [volatileReset, hardReset]

theorem volatileReset_state (s : State) :
    (volatileReset s).unit.state = if s.unit.holdUp = true then .safe else .recovering := startRecovery_state _

theorem assertReset_timeStep (h : execResetAssert s = .next t) : TimeStep .resetAssert s t := by
  by_cases hr : s.unit.state = .reset
  · have hsame : assertReset (beginHappening s) = beginHappening s := if_pos hr
    refine .same h ?_
    rw [happening_time, hsame]
    rfl
  · have hreset : assertReset (beginHappening s) = hardReset (beginHappening s) := if_neg hr
    cases h
    refine .resets (.inl ⟨rfl, hr, ?_⟩) ?_
    · rw [happening, hreset, settle_state (by simp [hardReset_spec])]
      rfl
    · rw [happening_time, hreset]
      rfl

theorem releaseReset_timeStep {v : BitVec 6} {a : BitVec 2} (h : execResetRelease v a s = .next t) :
    TimeStep (.resetRelease v a) s t := by
  by_cases hr : s.unit.state = .reset
  · cases h
    refine .releases ⟨v, a, rfl, hr⟩ ?_
    rw [happening_time, releaseReset, if_pos (by exact hr)]
    simp [Settings.defaults]
  · have hsame : releaseReset v a (beginHappening s) = beginHappening s := if_neg hr
    refine .same h ?_
    rw [happening_time, hsame]
    rfl

/-- RESTART makes the volatile reset at once where no tables are in service (R156). -/
theorem restart_timeStep {tag : Byte} {params : List Byte} (h : execRestart tag params s = .next t) :
    TimeStep (.restart tag params) s t := by
  rcases judge_cases tag params 0 State.mayRestart always (restartNow tag) (beginHappening s) with
    ⟨-, he⟩ | ⟨-, he⟩ | ⟨-, -, he⟩ | ⟨-, -, -, he⟩ | ⟨-, hp, -, he⟩
  case inr.inr.inr.inr =>
    by_cases hrunning : (beginHappening s).running = true
    · refine .same h ?_
      rw [happening_time, he, restartNow, if_pos hrunning]
      simp
    · simp only [State.mayRestart, Bool.not_eq_true _ ▸ hrunning, Bool.false_or, Bool.and_eq_true, Bool.or_eq_true,
        decide_eq_true_eq, Bool.not_eq_true'] at hp
      obtain ⟨hs, hoff⟩ := hp
      have hrun : restartNow tag (beginHappening s) = respond tag .accepted [] (volatileReset (beginHappening s)) :=
        if_neg hrunning
      have hstate : (restartNow tag (beginHappening s)).unit.state = .recovering := by
        rw [hrun]
        simpa using volatileReset_recovers hoff
      cases h
      refine .resets (.inr (.inl ⟨⟨tag, params, rfl⟩, by simpa [or_assoc] using hs, ?_⟩)) ?_
      · rw [happening, he, settle_state (by simp [hstate]), hstate]
      · rw [happening_time, he, hrun]
        simpa using volatileReset_time _
  all_goals exact .same h (by rw [happening_time, he]; simp)

/-! ### The completions that end CLOSING (R156, R164, R165) -/

/-- From s to t the time base stands, or CLOSING ends with restart pending and the volatile reset is made (R156). -/
def StandsOrRestarts (s t : State) : Prop :=
  TimeStands s t ∨
    (s.unit.state = .closing ∧ s.unit.restartPending = true ∧ t.time = State.reset.time ∧
      (t.unit.state = .recovering ∨ (s.unit.holdUp = true ∧ t.unit.state = .safe)))

theorem StandsOrRestarts.of_eq (h : t.time = s.time) : StandsOrRestarts s t := .inl (.of_eq h)

/-- An operation before it that leaves Unit Control as it is. -/
theorem StandsOrRestarts.after (k : StandsOrRestarts t u) (hunit : t.unit = s.unit) (htime : TimeStands s t) :
    StandsOrRestarts s u :=
  k.imp htime.trans fun h => hunit ▸ h

theorem StandsOrRestarts.settled (h : StandsOrRestarts s t) : StandsOrRestarts s (settle t) := by
  have htime : (settle t).time = t.time := (settle_frame t).1
  refine h.imp (fun hstands => hstands.trans (.of_eq htime)) ?_
  rintro ⟨hclosing, hpending, hreset, hstate⟩
  have hkept : (settle t).unit.state = t.unit.state :=
    settle_state (by rcases hstate with h | ⟨-, h⟩ <;> simp [h])
  exact ⟨hclosing, hpending, htime.trans hreset, hkept ▸ hstate⟩

theorem StandsOrRestarts.timeStep
    (hc : ∃ id report, c = .recordWriteComplete id report ∨ c = .checkpointLineComplete id report)
    (h : StandsOrRestarts s t) : TimeStep c s t := by
  rcases h with hstands | ⟨hclosing, hpending, hreset, hstate⟩
  · exact .stands hstands
  · exact .resets (.inr (.inr ⟨hc, hclosing, hpending, hstate⟩)) hreset

theorem closingEnds_standsOrRestarts (hs : s.unit.state = .closing) : StandsOrRestarts s (closingEnds s) := by
  unfold closingEnds
  split
  · rename_i hpending
    refine .inr ⟨hs, hpending, volatileReset_time s, ?_⟩
    rw [volatileReset_state]
    cases s.unit.holdUp <;> simp
  · exact .of_eq (by simp)

theorem shutdownDurable_standsOrRestarts : StandsOrRestarts s (shutdownDurable s) := by
  unfold shutdownDurable
  split
  · exact .of_eq (by simp)
  split
  · exact closingEnds_standsOrRestarts ‹_›
  · exact .of_eq rfl

theorem recordEffect_standsOrRestarts {k : Creator} {r : JournalRecord} : StandsOrRestarts s (recordEffect k r s) := by
  unfold recordEffect
  split
  · exact .of_eq (by simp)
  · split <;> exact .of_eq (by simp)
  · exact .of_eq (by simp)
  · exact .of_eq (by simp)
  · exact shutdownDurable_standsOrRestarts
  · exact .of_eq rfl

theorem recordOutcome_standsOrRestarts {report : WriteReport} : StandsOrRestarts s (recordOutcome report s) := by
  unfold recordOutcome
  dsimp only
  split
  · exact recordEffect_standsOrRestarts.after rfl (.of_eq rfl)
  · exact .of_eq rfl

/-- A commit sets the sweep count to 0 (R132), before CLOSING ends. -/
theorem commitCheckpoint_standsOrRestarts {k : Checkpoint} : StandsOrRestarts s (commitCheckpoint k s) := by
  unfold commitCheckpoint
  dsimp only
  split
  · rename_i hs
    simp only [Bool.and_eq_true, decide_eq_true_eq] at hs
    exact (closingEnds_standsOrRestarts hs.2).after rfl ⟨rfl, rfl, rfl, rfl⟩
  · exact .inl ⟨rfl, rfl, rfl, rfl⟩

theorem checkpointOutcome_standsOrRestarts {report : WriteReport} :
    StandsOrRestarts s (checkpointOutcome report s) := by
  unfold checkpointOutcome
  split
  · split
    · exact .of_eq (by simp)
    · exact .of_eq (by simp)
    · exact commitCheckpoint_standsOrRestarts
    · exact .of_eq rfl
  · exact .of_eq rfl

/-- A write's outcome, as the Media Port sees it, changes neither Unit Control nor the time base. -/
theorem StandsOrRestarts.after_write {op : InFlight} {report : WriteReport}
    (k : StandsOrRestarts (writeOutcome op report s) u) : StandsOrRestarts s u :=
  k.after (by simp) (.of_eq (by simp))

theorem happening_standsOrRestarts {body : State → State} (hbody : ∀ u, StandsOrRestarts u (body u)) :
    StandsOrRestarts s (happening body s) :=
  have hbegun : StandsOrRestarts s (body (beginHappening s)) := (hbody _).after rfl (.of_eq rfl)
  hbegun.settled

theorem recordWriteComplete_timeStep {id : AttemptId} {report : WriteReport}
    (h : execRecordWriteComplete id report s = .next t) : TimeStep (.recordWriteComplete id report) s t := by
  cases h
  refine (happening_standsOrRestarts fun u => ?_).timeStep ⟨id, report, .inl rfl⟩
  split
  · exact recordOutcome_standsOrRestarts.after_write
  · exact .of_eq rfl

theorem checkpointLineComplete_timeStep {id : AttemptId} {report : WriteReport}
    (h : execCheckpointLineComplete id report s = .next t) :
    TimeStep (.checkpointLineComplete id report) s t := by
  cases h
  refine (happening_standsOrRestarts fun u => ?_).timeStep ⟨id, report, .inr rfl⟩
  dsimp only
  split
  · split
    · exact checkpointOutcome_standsOrRestarts.after_write
    · exact .of_eq (by simp)
  · exact .of_eq rfl

/-! ### The settings and the sweep boundary (R171, R175, R176) -/

theorem commitSettingsNow_time (s : State) :
    (commitSettingsNow s).time.tick = s.time.tick ∧
    (commitSettingsNow s).time.nextBoundary = s.time.nextBoundary ∧ ActiveCommits s (commitSettingsNow s) ∧
    (commitSettingsNow s).time.staged = s.time.staged := by
  rcases commitSettingsNow_cases s with ⟨-, he⟩ | ⟨-, he⟩ | ⟨-, hlt, he⟩ <;> rw [he]
  · exact ⟨rfl, rfl, .inl rfl, rfl⟩
  · exact ⟨rfl, rfl, .inl rfl, rfl⟩
  · exact ⟨rfl, rfl, .inr ⟨rfl, hlt⟩, rfl⟩

theorem commitSettings_timeStep {tag : Byte} {params : List Byte} (h : execCommitSettings tag params s = .next t) :
    TimeStep (.commitSettings tag params) s t := by
  rcases judge_cases tag params 0 State.mayStage always
      (fun t => respond tag (if t.commitRejected then .badArg else .ok) [] (commitSettingsNow t)) (beginHappening s) with
    ⟨-, he⟩ | ⟨-, he⟩ | ⟨-, -, he⟩ | ⟨-, -, -, he⟩ | ⟨-, -, -, he⟩
  case inr.inr.inr.inr =>
    obtain ⟨htick, hboundary, hactive, hstaged⟩ := commitSettingsNow_time (beginHappening s)
    have htime : t.time = (commitSettingsNow (beginHappening s)).time := by
      cases h
      rw [happening_time, he]
      simp
    exact .commits (.inr ⟨tag, params, rfl⟩) (htime ▸ htick) (.inl (htime ▸ hboundary))
      (by rw [ActiveCommits, htime]; exact hactive) (htime ▸ hstaged)
  all_goals exact .same h (by rw [happening_time, he]; simp)

theorem boundaryCommit_commits (s : State) :
    (boundaryCommit s).time.tick = s.time.tick ∧ ActiveCommits s (boundaryCommit s) ∧
    (boundaryCommit s).time.staged = s.time.staged := by
  obtain ⟨htick, -, hactive, hstaged⟩ := commitSettingsNow_time s
  unfold boundaryCommit
  dsimp only
  split
  · exact ⟨rfl, .inl rfl, rfl⟩
  · exact ⟨htick, hactive, hstaged⟩

/-- A sweep moves the sweep count alone (R173). -/
theorem boundarySweep_timeStands : TimeStands s (boundarySweep s) := by
  unfold boundarySweep countSweep
  dsimp only
  split
  · split <;> exact ⟨by simp, by simp, by simp, by simp⟩
  · exact .of_eq rfl

/-- After its commit a boundary moves the held boundary and the sweep count alone (R171, R173). -/
theorem boundaryWork_time (s : State) :
    (boundaryWork s).time.tick = s.time.tick ∧ ActiveCommits s (boundaryWork s) ∧
    (boundaryWork s).time.staged = s.time.staged := by
  have hstands : TimeStands (boundaryCommit s) (boundaryWork s) :=
    boundarySweep_timeStands.trans (.of_eq (by simp [boundaryWork]))
  obtain ⟨htick, hactive, hstaged⟩ := boundaryCommit_commits s
  exact ⟨hstands.tick.trans htick, by rw [ActiveCommits, hstands.active]; exact hactive, hstands.staged.trans hstaged⟩

theorem sweepBoundary_timeStep (h : execSweepBoundary s = .next t) : TimeStep .sweepBoundary s t := by
  by_cases hf : (beginHappening s).boundaryFalls = true
  · obtain ⟨htick, hactive, hstaged⟩ := boundaryWork_time (beginHappening s)
    have htime : t.time = (boundaryWork (beginHappening s)).time := by
      cases h
      rw [happening_time, if_pos hf]
    exact .commits (.inl rfl) (htime ▸ htick) (.inr rfl) (by rw [ActiveCommits, htime]; exact hactive)
      (htime ▸ hstaged)
  · exact .same h (by rw [happening_time, if_neg hf]; rfl)

end Sys2Proof.Machine
end

section
/-! SUPPORT. Every command, and every step: the settings keep their ranges, and the time base changes only as ruled (R170, R171,
R174 to R176). -/

namespace Sys2Proof.Machine

set_option Elab.async false

/-! ### Values in range (R174, R175) -/

/-- Only a setting that exists has values in its range (Table 10.2). -/
theorem Settings.get_put_same {x : Settings} {id v : Nat} (hv : settingInRange id v = true) :
    (x.put id v).get id = some v := by
  unfold Settings.put
  split
  case h_11 =>
    unfold settingInRange settingRange at hv
    split at hv
    case h_11 =>
      simp only [Bool.and_eq_true, decide_eq_true_eq] at hv
      omega
    all_goals contradiction
  all_goals rfl

theorem Settings.get_put_ne {x : Settings} {id v i : Nat} (hne : i ≠ id) : (x.put id v).get i = x.get i := by
  unfold Settings.put
  split
  case h_11 => rfl
  all_goals
    unfold Settings.get
    split <;> simp_all

theorem Settings.put_inRange {x : Settings} {id v : Nat} (h : x.inRange = true) (hv : settingInRange id v = true) :
    (x.put id v).inRange = true := by
  rw [Settings.inRange, List.all_eq_true] at h ⊢
  intro i hi
  by_cases heq : i = id
  · rw [heq, Settings.get_put_same hv]
    exact hv
  · rw [Settings.get_put_ne heq]
    exact h i hi

theorem Settings.defaults_inRange : Settings.defaults.inRange = true := by decide

variable {s t : State} {c : Instr}

theorem stageSetting_timeStep {tag : Byte} {params : List Byte} (h : execStageSetting tag params s = .next t) :
    TimeStep (.stageSetting tag params) s t := by
  rcases judge_cases tag params 5 State.mayStage
      (fun _ => settingInRange (paramField params 0 1) (paramField params 1 4))
      (fun t => respond tag .ok [] (t.setTime { t.time with
        staged := t.time.staged.put (paramField params 0 1) (paramField params 1 4) })) (beginHappening s) with
    ⟨-, he⟩ | ⟨-, he⟩ | ⟨-, -, he⟩ | ⟨-, -, -, he⟩ | ⟨-, -, hrange, he⟩
  case inr.inr.inr.inr =>
    refine .stages (s.time.staged.put (paramField params 0 1) (paramField params 1 4)) ?_
      fun hs => Settings.put_inRange hs.staged hrange
    cases h
    rw [he]
    rfl
  all_goals exact .same h (by rw [he]; simp)

theorem discardStaged_timeStep {tag : Byte} {params : List Byte} (h : execDiscardStaged tag params s = .next t) :
    TimeStep (.discardStaged tag params) s t := by
  rcases judge_cases tag params 0 State.mayStage always
      (fun t => respond tag .ok [] (t.setTime { t.time with staged := t.time.active })) (beginHappening s) with
    ⟨-, he⟩ | ⟨-, he⟩ | ⟨-, -, he⟩ | ⟨-, -, -, he⟩ | ⟨-, -, -, he⟩
  case inr.inr.inr.inr =>
    refine .stages s.time.active ?_ fun hs => hs.active
    cases h
    rw [he]
    rfl
  all_goals exact .same h (by rw [he]; simp)

/-! ### The medium's completions -/

theorem hostReadReturn_timeStep {id : AttemptId} {stored : Stored} (h : execHostReadReturn id stored s = .next t) :
    TimeStep c s t := by
  refine .same h (happening_time_eq fun u => ?_)
  split <;> simp

theorem fillReadComplete_timeStep {id : AttemptId} {stored : Stored}
    (h : execFillReadComplete id stored s = .next t) : TimeStep c s t := by
  refine .same h (happening_time_eq fun u => ?_)
  dsimp only
  split
  · split <;> simp
  · rfl

theorem drainWriteComplete_timeStep {id : AttemptId} {report : WriteReport}
    (h : execDrainWriteComplete id report s = .next t) : TimeStep c s t := by
  refine .same h (happening_time_eq fun u => ?_)
  dsimp only
  split
  · split <;> simp
  · rfl

theorem copyReadComplete_timeStep {id : AttemptId} {stored : Stored}
    (h : execCopyReadComplete id stored s = .next t) : TimeStep c s t := by
  refine .same h (happening_time_eq fun u => ?_)
  dsimp only
  split <;> simp

theorem copyWriteComplete_timeStep {id : AttemptId} {report : WriteReport}
    (h : execCopyWriteComplete id report s = .next t) : TimeStep c s t := by
  refine .same h (happening_time_eq fun u => ?_)
  split <;> simp

theorem recoveryReadComplete_timeStep {id : AttemptId} {stored : Stored}
    (h : execRecoveryReadComplete id stored s = .next t) : TimeStep c s t := by
  refine .same h (happening_time_eq fun u => ?_)
  dsimp only
  split <;> simp

/-- FORMAT's completion sets the sweep count to 0 (R148). -/
theorem formatWriteOutcome_timeStands {w : FormatWork} {report : WriteReport} :
    TimeStands s (formatWriteOutcome w report s) := by
  unfold formatWriteOutcome
  split
  · exact .of_eq (by simp)
  · dsimp only
    split
    · exact .of_eq (by simp)
    · unfold completeFormat
      exact ⟨by simp, by simp, by simp, by simp⟩

theorem formatOperationComplete_timeStep {id : AttemptId} {completion : FormatCompletion}
    (h : execFormatOperationComplete id completion s = .next t) : TimeStep c s t := by
  cases completion with
  | read stored => exact .same h (happening_time_eq fun u => by simp)
  | write report =>
    cases h
    refine .stands (happening_timeStands fun u => ?_)
    dsimp only
    unfold formatWriteArrives
    split
    · exact (TimeStands.of_eq (by simp)).trans formatWriteOutcome_timeStands
    · exact .of_eq rfl

/-! ### The management link -/

theorem setFence_time {tag : Byte} {params : List Byte} : (setFence tag params s).time = s.time := by
  unfold setFence
  dsimp only
  split
  · exact judge_time (by simp)
  · exact judge_time (by simp)

theorem responseRead_timeStep {n : Nat} (h : execResponseRead n s = .next t) : TimeStep c s t := by
  refine .same h ?_
  split <;> simp

/-- A transfer that is answered with a status alone, or not at all (R183). -/
theorem answeredUnless_time {p : Prop} [Decidable p] {tag : Byte} {status : Status} :
    (if p then beginHappening s else respond tag status [] (beginHappening s)).time = s.time := by
  split <;> simp

theorem abortMigration_timeStep {tag : Byte} {params : List Byte} (h : execAbortMigration tag params s = .next t) :
    TimeStep c s t := by
  refine .same h (judged_time fun u => ?_)
  split <;> simp

theorem checkpointNow_timeStep {tag : Byte} {params : List Byte} (h : execCheckpointNow tag params s = .next t) :
    TimeStep c s t := by
  refine .same h (judged_time fun u => ?_)
  split <;> simp

theorem attemptTimeout_timeStep {place : Fin 8} (h : execAttemptTimeout place s = .next t) : TimeStep c s t := by
  refine .same h (happening_time_eq fun u => ?_)
  split <;> simp

/-! ### Every command -/

/-- Every command changes the time base as the rules have it. -/
theorem exec_timeStep (c : Instr) (h : exec c s = .next t) : TimeStep c s t := by
  cases c with
  | resetAssert => exact assertReset_timeStep h
  | resetRelease => exact releaseReset_timeStep h
  | holdUpAssert => exact .same h (happening_time_eq fun u => by simp)
  | holdUpDeassert => exact .same h (happening_time_eq fun u => by simp)
  | sweepBoundary => exact sweepBoundary_timeStep h
  | drainAgeReached => exact .same h (happening_time_eq fun _ => rfl)
  | stampAgeClamp => exact .same h (happening_time_eq fun u => by simp)
  | hostRead => exact .same h (happening_time_eq fun u => by simp)
  | hostWrite => exact .same h (happening_time_eq fun u => by simp)
  | hostPersist => exact .same h (happening_time_eq fun u => by simp)
  | hostUnknownKind => exact .same h (happening_time_eq fun u => by simp)
  | waitQueueTake => exact .same h performed_time
  | persistTake => exact .same h performed_time
  | persistDone => exact .same h performed_time
  | flushDone => exact .same h performed_time
  | drainIssue => exact .same h performed_time
  | mediaGrant => exact .same h (happening_time_eq fun u => by simp)
  | attemptTimeout => exact attemptTimeout_timeStep h
  | staleCompletionDiscard => exact .same h (by simp)
  | hostReadReturn => exact hostReadReturn_timeStep h
  | fillReadComplete => exact fillReadComplete_timeStep h
  | drainWriteComplete => exact drainWriteComplete_timeStep h
  | copyReadComplete => exact copyReadComplete_timeStep h
  | copyWriteComplete => exact copyWriteComplete_timeStep h
  | recordWriteComplete => exact recordWriteComplete_timeStep h
  | checkpointLineComplete => exact checkpointLineComplete_timeStep h
  | formatOperationComplete => exact formatOperationComplete_timeStep h
  | recoveryReadComplete => exact recoveryReadComplete_timeStep h
  | migrationTake => exact .same h performed_time
  | quiesceEnd => exact .same h performed_time
  | migrationSwitch => exact .same h performed_time
  | lateCopyStart => exact .same h performed_time
  | abortComplete => exact .same h performed_time
  | recordWriteIssue => exact .same h performed_time
  | creatorJoinQueue => exact .same h performed_time
  | checkpointImageFix => exact .same h performed_time
  | drainLockEmptyingEnd => exact .same h performed_time
  | closingEmptyingEnd => exact .same h performed_time
  | closingCheckpointStart => exact .same h performed_time
  | responseRead => exact responseRead_timeStep h
  | unknownCommand => exact .same h answeredUnless_time
  | getStatus => exact .same h (judgeBegun_time fun _ => rfl)
  | getHealth => exact .same h (judgeBegun_time fun _ => rfl)
  | getIdentity => exact .same h (judgeBegun_time fun _ => rfl)
  | readMapEntry => exact .same h (judgeBegun_time fun _ => rfl)
  | readFrameRecord => exact .same h (judgeBegun_time fun _ => rfl)
  | readPoolEntry => exact .same h (judgeBegun_time fun _ => rfl)
  | getSetting => exact .same h (judgeBegun_time fun _ => rfl)
  | stageSetting => exact stageSetting_timeStep h
  | commitSettings => exact commitSettings_timeStep h
  | discardStaged => exact discardStaged_timeStep h
  | setFenceVolatile => exact .same h (happening_time_eq fun _ => setFence_time)
  | setFencePersistent => exact .same h (happening_time_eq fun _ => setFence_time)
  | flush => exact .same h (judged_time fun _ => rfl)
  | requestMigration => exact .same h (judged_time fun u => by simp)
  | abortMigration => exact abortMigration_timeStep h
  | checkpointNow => exact checkpointNow_timeStep h
  | prepareOff => exact .same h (judged_time fun u => by simp)
  | resume => exact .same h (judged_time fun u => by simp)
  | restart => exact restart_timeStep h
  | format => exact .same h (judged_time fun u => by simp)
  | readEvents => exact .same h (judgeBegun_time fun _ => rfl)
  | clearEvents => exact .same h (judgeBegun_time fun _ => rfl)
  | setEventEnable => exact .same h (judgeBegun_time fun _ => rfl)
  | requestNotWellFormed => exact .same h answeredUnless_time

/-- Settles O11: of what a command does to the time base, only a commit and a reset change the active set, and only a reset
and its release the counter. -/
theorem timeBaseChangesOnlyAsRuled : Obligations.TimeBaseChangesOnlyAsRuled := by
  refine ⟨fun c s t h => ?_, fun c s t h => ?_⟩
  · cases exec_timeStep c h with
    | stands h => exact .inl h.active
    | stages x h => exact .inl (by rw [h])
    | commits hc htick hboundary hactive =>
      exact hactive.imp_right fun ⟨hinstalled, hlt⟩ => .inl ⟨hinstalled, hlt, hc⟩
    | resets hc h => exact .inr (.inr ⟨by rw [h]; rfl, by rw [h]; rfl, hc⟩)
    | releases hc h => exact .inl (by rw [h])
  · cases exec_timeStep c h with
    | stands h => exact .inl ⟨h.tick, .inl h.boundary⟩
    | stages x h => exact .inl ⟨by rw [h], .inl (by rw [h])⟩
    | commits hc htick hboundary => exact .inl ⟨htick, hboundary⟩
    | resets hc h => exact .inr ⟨by rw [h]; rfl, by rw [h]; rfl, .inl hc⟩
    | releases hc h => exact .inr ⟨by rw [h], by rw [h], .inr hc⟩

/-! ### Every step -/

theorem State.SettingsSound.of_eq (hactive : t.time.active = s.time.active) (hstaged : t.time.staged = s.time.staged)
    (h : s.SettingsSound) : t.SettingsSound :=
  ⟨by rw [hactive]; exact h.active, by rw [hstaged]; exact h.staged, by rw [hactive]; exact h.watermarks⟩

theorem TimeStep.settingsSound (h : TimeStep c s t) (hs : s.SettingsSound) : t.SettingsSound := by
  cases h with
  | stands h => exact .of_eq h.active h.staged hs
  | stages x h hx => exact ⟨by rw [h]; exact hs.active, by rw [h]; exact hx hs, by rw [h]; exact hs.watermarks⟩
  | commits _ _ _ hactive hstaged =>
    rcases hactive with hsame | ⟨hinstalled, hlt⟩
    · exact .of_eq hsame hstaged hs
    · exact ⟨by rw [hinstalled]; exact hs.staged, by rw [hstaged]; exact hs.staged, by rw [hinstalled]; exact hlt⟩
  | resets _ h =>
    exact ⟨by rw [h]; exact Settings.defaults_inRange, by rw [h]; exact Settings.defaults_inRange, by rw [h]; decide⟩
  | releases _ h => exact .of_eq (by rw [h]) (by rw [h]) hs

theorem tick_settings (s : State) : (tick s).time.active = s.time.active ∧ (tick s).time.staged = s.time.staged := by
  unfold tick
  split <;> exact ⟨rfl, rfl⟩

/-- Settles O6: a step is a command's, which changes the settings as ruled, or a tick, which leaves them alone. -/
theorem stepKeepsSettingsSound : Obligations.StepKeepsSettingsSound := by
  intro s t hs h
  unfold step at h
  split at h
  · exact (exec_timeStep _ h).settingsSound (.of_eq (s := s) rfl rfl hs)
  · cases h
    obtain ⟨hactive, hstaged⟩ := tick_settings s
    exact .of_eq hactive hstaged hs

end Sys2Proof.Machine
end

section
/-! SUPPORT. What the rest of a happening keeps of a sweep's results: the level check record, the two alert flags, HEALTH_ALERT
and a checkpoint in progress (R117, R128, R180). -/

namespace Sys2Proof.Machine

set_option Elab.async false

/-- The two alert flags (R180). -/
def HealthMonitor.alerts (h : HealthMonitor) : Bool × Bool := (h.spareLow, h.lifeHigh)

/-- From s to t the level check record and the alert flags stand, HEALTH_ALERT stays raised, and a checkpoint in progress
stays in progress. -/
structure SweepKept (s t : State) : Prop where
  levelCheck : t.mig.levelCheck = s.mig.levelCheck
  alerts : t.health.alerts = s.health.alerts
  raised : s.raised .healthAlert = true → t.raised .healthAlert = true
  checkpoint : s.jrn.checkpoint.isSome = true → t.jrn.checkpoint.isSome = true

variable {s t u : State}

theorem SweepKept.refl (s : State) : SweepKept s s := ⟨rfl, rfl, id, id⟩

theorem SweepKept.trans (h : SweepKept s t) (k : SweepKept t u) : SweepKept s u :=
  ⟨k.levelCheck.trans h.levelCheck, k.alerts.trans h.alerts, k.raised ∘ h.raised, k.checkpoint ∘ h.checkpoint⟩

/-- An operation that raises no event, and touches none of these. -/
theorem SweepKept.same (h : SweepKept s t) (hlevel : u.mig.levelCheck = t.mig.levelCheck := by simp)
    (halerts : u.health.alerts = t.health.alerts := by simp) (hlink : u.link.flags = t.link.flags := by simp)
    (hcheckpoint : u.jrn.checkpoint = t.jrn.checkpoint := by simp) : SweepKept s u :=
  h.trans ⟨hlevel, halerts, fun hr => by rw [State.raised, hlink]; exact hr, fun hc => by rw [hcheckpoint]; exact hc⟩

/-! ### Flags, counts, and the records of the engine -/

theorem raise_sweepKept {e : Event} (h : SweepKept s t) : SweepKept s (raise e t) :=
  h.trans ⟨by simp, by simp, fun hr => by simp [raise_raised, hr], by simp⟩

@[simp] theorem setLastResult_levelCheck (l : Nat) (reason : Reason) (result : MigResult) (s : State) :
    (setLastResult l reason result s).mig.levelCheck = s.mig.levelCheck := rfl

@[simp] theorem engineIdle_levelCheck (s : State) : (engineIdle s).mig.levelCheck = s.mig.levelCheck := rfl

@[simp] theorem joinRetire_levelCheck (r : MigRequest) (s : State) :
    (joinRetire r s).mig.levelCheck = s.mig.levelCheck := rfl

@[simp] theorem updMig_levelCheck (f : Migration → Migration) (s : State) :
    (updMig f s).mig.levelCheck = s.mig.levelCheck := rfl

@[simp] theorem upgradeCurrent_levelCheck (reason : Reason) (s : State) :
    (upgradeCurrent reason s).mig.levelCheck = s.mig.levelCheck := rfl

@[simp] theorem committedCount_alerts (r : Reason) (h : HealthMonitor) : (committedCount r h).alerts = h.alerts := by
  cases r <;> rfl

/-! ### Journal Controller -/

theorem handOver_sweepKept {c : Creator} {r : JournalRecord} (h : SweepKept s t) : SweepKept s (handOver c r t) := by
  unfold handOver waitWith
  split
  · exact h.same (hcheckpoint := rfl)
  split
  · exact h.same
  · dsimp only
    split
    · exact raise_sweepKept h.same
    · exact h.same

theorem startCheckpoint_sweepKept {clean : Bool} (h : SweepKept s t) : SweepKept s (startCheckpoint clean t) :=
  h.trans ⟨rfl, rfl, id, fun _ => rfl⟩

theorem triggerCheckpoint_sweepKept (h : SweepKept s t) : SweepKept s (triggerCheckpoint t) := by
  rcases triggerCheckpoint_cases t with ⟨-, he⟩ | ⟨-, he⟩ <;> rw [he]
  · exact startCheckpoint_sweepKept h
  · exact h

theorem ringTrigger_sweepKept (h : SweepKept s t) : SweepKept s (ringTrigger t) := by
  unfold ringTrigger
  split
  · exact triggerCheckpoint_sweepKept h
  · exact h

/-- A record's issue counts its slot in a checkpoint in progress (R123). -/
theorem issueRecord_sweepKept {r : StagedRecord} {rest : List StagedRecord} (h : SweepKept s t) :
    SweepKept s (issueRecord r rest t) :=
  ringTrigger_sweepKept
    (h.trans ⟨by simp, by simp, fun hr => by simpa [State.raised] using hr, fun hc => by simpa using hc⟩)

/-! ### Retire causes (R83, R111) -/

theorem evictNewest_sweepKept (h : SweepKept s t) : SweepKept s (evictNewest t) := by
  unfold evictNewest
  split
  · dsimp only
    split
    · exact raise_sweepKept h.same
    · exact h.same
  · exact h

theorem handleRetire_sweepKept {l : Nat} {reason : Reason} (h : SweepKept s t) :
    SweepKept s (handleRetire l reason t) := by
  unfold handleRetire
  dsimp only
  split
  · exact h
  split
  · split <;> exact h.same
  split
  · exact h
  split
  · exact h.same
  split
  · exact h.same
  split
  · exact h
  · exact (evictNewest_sweepKept h).same

theorem retireCause_sweepKept {f : Nat} {reason : Reason} (h : SweepKept s t) :
    SweepKept s (retireCause f reason t) := by
  unfold retireCause retireRequest
  split
  · split
    · dsimp only
      split
      · split
        · exact handleRetire_sweepKept h.same
        · exact h.same
      · exact h.same
    · exact h
  · exact h

/-! ### Migration Engine -/

theorem setLastResult_sweepKept {l : Nat} {reason : Reason} {result : MigResult} (h : SweepKept s t) :
    SweepKept s (setLastResult l reason result t) := h.same

theorem engineIdle_sweepKept (h : SweepKept s t) : SweepKept s (engineIdle t) := h.same

theorem setMigrationMark_sweepKept {l : Nat} {v : Bool} (h : SweepKept s t) : SweepKept s (setMigrationMark l v t) :=
  h.same

theorem bumpHealth_sweepKept {f : HealthMonitor → HealthMonitor} (hf : ∀ x, (f x).alerts = x.alerts)
    (h : SweepKept s t) : SweepKept s (bumpHealth f t) := h.same (halerts := hf _)

theorem setLatch_sweepKept (h : SweepKept s t) : SweepKept s (setLatch t) := by
  by_cases hs : t.unit.state = .online
  · have hprotected : SweepKept s (enterState .writeProtected (t.setMap { t.map with latch := true })) :=
      raise_sweepKept h.same
    rw [setLatch_online hs]
    exact hprotected.same
  · rw [setLatch_notOnline hs]
    exact h.same

theorem spareExhausted_sweepKept {m : Migration} (h : SweepKept s t) : SweepKept s (spareExhausted m t) := by
  have hmarked : SweepKept s (setFailMark m.logical false (updFrame m.source (fun r => { r with overdue := true }) t)) :=
    h.same
  exact engineIdle_sweepKept (setLastResult_sweepKept (setMigrationMark_sweepKept (raise_sweepKept
    (setLatch_sweepKept hmarked))))

theorem noSpare_sweepKept {m : Migration} (h : SweepKept s t) : SweepKept s (noSpare m t) :=
  engineIdle_sweepKept (setLastResult_sweepKept (raise_sweepKept (bumpHealth_sweepKept (fun _ => rfl)
    (setMigrationMark_sweepKept h))))

theorem askTarget_sweepKept {m : Migration} (h : SweepKept s t) : SweepKept s (askTarget m t) := by
  unfold askTarget
  split
  · exact h.same
  split
  · exact spareExhausted_sweepKept h
  · exact noSpare_sweepKept h

theorem completeAbort_sweepKept {m : Migration} (h : SweepKept s t) : SweepKept s (completeAbort m t) := by
  have hmark : SweepKept s (setMigrationMark m.logical false (returnTarget m t)) := h.same
  refine engineIdle_sweepKept (setLastResult_sweepKept (raise_sweepKept (bumpHealth_sweepKept (fun _ => rfl) ?_)))
  split
  · exact hmark
  · exact hmark.same

theorem switchMigration_sweepKept {m : Migration} (h : SweepKept s t) : SweepKept s (switchMigration m t) := by
  have hswitched : SweepKept s (switchTables m t) := h.same
  have hidle := engineIdle_sweepKept (setLastResult_sweepKept (l := m.logical) (reason := m.reason)
    (result := .committed) (bumpHealth_sweepKept (committedCount_alerts m.reason)
      (raise_sweepKept (e := .migrationDone) hswitched)))
  unfold switchMigration checkNewFrame
  dsimp only
  split
  · split
    · exact retireCause_sweepKept hidle
    split
    · exact retireCause_sweepKept hidle
    · exact hidle
  · exact hidle

/-- Taking a request leaves the engine's records as they are (R82). -/
theorem takeHead_levelCheck {m m' : MigrationEngine} {r : MigRequest} (h : m.takeHead = some (r, m')) :
    m'.levelCheck = m.levelCheck := by
  unfold MigrationEngine.takeHead at h
  split at h <;> cases h <;> rfl

/-! ### The rest of a happening -/

theorem imageFix?_sweepKept (h : imageFix? s = some t) : SweepKept s t := by
  unfold imageFix? at h
  split at h
  · split at h <;> cases h
    exact ⟨by simp, by simp, by simp [State.raised], by simp⟩
  · cases h

theorem creatorJoin?_sweepKept (h : creatorJoin? s = some t) : SweepKept s t := by
  unfold creatorJoin? at h
  split at h
  · split at h
    · cases h
    split at h <;> cases h
    · exact (SweepKept.refl s).same
    · exact (SweepKept.refl s).same (hcheckpoint := by simp [stageRecord])
  · cases h

/-- An event that touches neither the engine, nor the journal, nor health, nor the link. -/
theorem SweepKept.of_frame (h : t.mig = s.mig ∧ t.jrn = s.jrn ∧ t.health = s.health ∧ t.link = s.link) :
    SweepKept s t := by
  obtain ⟨hmig, hjrn, hhealth, hlink⟩ := h
  exact (SweepKept.refl s).same (by rw [hmig]) (by rw [hhealth]) (by rw [hlink]) (by rw [hjrn])

/-- Each of the sixteen follow-up events. -/
theorem followUp_sweepKept {e : State → Option State} (he : e ∈ followUps) (h : e s = some t) : SweepKept s t := by
  fin_cases he
  · unfold abortComplete? at h
    split at h
    · split at h <;> cases h
      exact completeAbort_sweepKept (.refl s)
    · cases h
  · unfold migrationSwitch? at h
    split at h
    · split at h <;> cases h
      exact switchMigration_sweepKept (.refl s)
    · cases h
  · exact creatorJoin?_sweepKept h
  · unfold flushDone? at h
    split at h
    · cases h
    split at h
    · split at h <;> cases h
      exact raise_sweepKept (SweepKept.refl s).same
    · cases h
  · exact .of_frame (by simp [persistDone?_frame s h])
  · exact .of_frame (by simp [waitQueueTake?_frame s h])
  · exact .of_frame (by simp [persistTake?_frame s h])
  · unfold migrationTake? at h
    split at h
    · split at h <;> cases h
      rename_i htake
      have hlevel := takeHead_levelCheck htake
      exact (SweepKept.refl s).same (hlevel := hlevel)
    · cases h
  · unfold quiesceEnd? at h
    split at h
    · split at h <;> cases h
      exact askTarget_sweepKept (.refl s)
    · cases h
  · unfold lateCopyStart? at h
    split at h
    · split at h
      · split at h <;> cases h
        exact (SweepKept.refl s).same
      · cases h
    · cases h
  · unfold drainLockEmptyingEnd? at h
    split at h <;> cases h
    exact handOver_sweepKept (SweepKept.refl s).same
  · exact .of_frame (by simp [closingEmptyingEnd?_frame s h])
  · unfold closingCheckpointStart? at h
    split at h <;> cases h
    exact startCheckpoint_sweepKept (.refl s)
  · exact imageFix?_sweepKept h
  · unfold recordIssue? at h
    split at h
    · split at h <;> cases h
      exact issueRecord_sweepKept (.refl s)
    · cases h
  · exact .of_frame (by simp [drainIssue?_frame s h])

theorem settle_sweepKept (s : State) : SweepKept s (settle s) := by
  refine settle_induct (SweepKept s) (fun u v hu hv => ?_) (fun u hu => hu.trans (.of_frame (by simp))) s (.refl s)
  obtain ⟨e, he, h⟩ := List.exists_of_findSome?_eq_some hv
  exact hu.trans (followUp_sweepKept he h)

end Sys2Proof.Machine
end

section
/-! SUPPORT. The level check of a wear sweep: the hottest frame, and each outcome of Table 6.3 (R84, R115 to R117). -/

namespace Sys2Proof.Machine

variable {s : State}

/-! ### The hottest frame (R116) -/

/-- Frame y is as hot as frame z, or hotter; on equal wear it has the lower number. -/
def AsHot (y z : FrameRecord × Nat) : Prop := z.1.wear < y.1.wear ∨ (z.1.wear = y.1.wear ∧ y.2 ≤ z.2)

theorem AsHot.refl (y : FrameRecord × Nat) : AsHot y y := .inr ⟨rfl, le_rfl⟩

theorem AsHot.trans {x y z : FrameRecord × Nat} (h : AsHot x y) (k : AsHot y z) : AsHot x z := by
  unfold AsHot at *
  omega

theorem AsHot.number_eq {y z : FrameRecord × Nat} (h : AsHot y z) (k : AsHot z y) : y.2 = z.2 := by
  unfold AsHot at *
  omega

theorem hotter_asHot {x y : FrameRecord × Nat} (hxy : x.2 < y.2) :
    (hotter x y = x ∨ hotter x y = y) ∧ AsHot (hotter x y) x ∧ AsHot (hotter x y) y := by
  unfold hotter
  split
  · exact ⟨.inr rfl, .inl ‹_›, .refl y⟩
  · refine ⟨.inl rfl, .refl x, ?_⟩
    unfold AsHot
    omega

/-- Of numbered frames in ascending order, the fold picks one that is as hot as each. -/
theorem foldl_hotter_asHot (rest : List (FrameRecord × Nat)) :
    ∀ x, (x :: rest).Pairwise (fun a b => a.2 < b.2) →
      rest.foldl hotter x ∈ x :: rest ∧ ∀ z ∈ x :: rest, AsHot (rest.foldl hotter x) z := by
  induction rest with
  | nil =>
    intro x _
    simp [AsHot.refl]
  | cons y rest ih =>
    intro x hsorted
    obtain ⟨hx, hsorted⟩ := List.pairwise_cons.mp hsorted
    obtain ⟨hy, hrest⟩ := List.pairwise_cons.mp hsorted
    obtain ⟨hone, hhotx, hhoty⟩ := hotter_asHot (hx y List.mem_cons_self)
    have hnext : (hotter x y :: rest).Pairwise fun a b => a.2 < b.2 := by
      refine List.pairwise_cons.mpr ⟨fun z hz => ?_, hrest⟩
      rcases hone with h | h <;> rw [h]
      · exact hx z (List.mem_cons_of_mem _ hz)
      · exact hy z hz
    obtain ⟨hmem, hhot⟩ := ih (hotter x y) hnext
    obtain ⟨hhotter, hhot⟩ := List.forall_mem_cons.mp hhot
    rw [List.foldl_cons]
    refine ⟨?_, ?_⟩
    · rcases List.mem_cons.mp hmem with h | h
      · rw [h]
        rcases hone with h | h <;> simp [h]
      · exact List.mem_cons_of_mem _ (List.mem_cons_of_mem _ h)
    · exact List.forall_mem_cons.mpr
        ⟨hhotter.trans hhotx, List.forall_mem_cons.mpr ⟨hhotter.trans hhoty, hhot⟩⟩

/-- The MAPPED frame that no other is hotter than is the hottest frame. -/
theorem hottestOf_eq {hot : Nat} {r : FrameRecord} (hr : s.frame? hot = some r) (hrole : r.role = .mapped)
    (hhot : ∀ f x, s.frame? f = some x → x.role = .mapped → AsHot (r, hot) (x, f)) :
    hottestOf s.map.frames = some (r, hot) := by
  have hmem : ∀ p, p ∈ (s.map.frames.zipIdx.filter fun p => p.1.role = .mapped) ↔
      s.frame? p.2 = some p.1 ∧ p.1.role = .mapped := fun p => by
    simp [State.frame?, List.mem_zipIdx_iff_getElem?]
  have hsorted : (s.map.frames.zipIdx.filter fun p => p.1.role = .mapped).Pairwise (fun a b => a.2 < b.2) := by
    have hall : s.map.frames.zipIdx.Pairwise (fun a b => a.2 < b.2) := by
      rw [← List.pairwise_map (f := Prod.snd) (R := (· < ·)), List.zipIdx_map_snd]
      exact List.pairwise_lt_range'
    exact hall.sublist List.filter_sublist
  unfold hottestOf
  split
  · rename_i hnone
    have hin := (hmem (r, hot)).mpr ⟨hr, hrole⟩
    simp [hnone] at hin
  · rename_i x rest hsome
    rw [hsome] at hmem hsorted
    obtain ⟨hin, hhottest⟩ := foldl_hotter_asHot rest x hsorted
    obtain ⟨hframe, hmapped⟩ := (hmem _).mp hin
    have hnumber := (hhottest _ ((hmem (r, hot)).mpr ⟨hr, hrole⟩)).number_eq (hhot _ _ hframe hmapped)
    rw [hnumber, hr] at hframe
    exact congrArg some (Prod.ext (Option.some.inj hframe).symm hnumber)

/-! ### The outcomes (R84, R115 to R117) -/

/-- The state with the level check record of this tick, and with the requests that the check makes. -/
def State.leveled (s : State) (outcome : LevelOutcome) (figures : Option LevelFigures) (joined : List MigRequest) :
    State :=
  { s with mig := { s.mig with
      backQueue := s.mig.backQueue ++ joined, levelCheck := some ⟨s.time.tick, outcome, figures⟩ } }

theorem setLevelCheck_eq (outcome : LevelOutcome) (figures : Option LevelFigures) (s : State) :
    setLevelCheck outcome figures s = s.leveled outcome figures [] := by
  rw [State.leveled, List.append_nil]
  rfl

/-- A request that the check makes stands at the tail of the back class (R82, R84). -/
theorem setLevelCheck_joinBack (outcome : LevelOutcome) (figures : Option LevelFigures) (q : MigRequest) (s : State) :
    setLevelCheck outcome figures (joinBack q s) = s.leveled outcome figures [q] := rfl

theorem levelPending_iff : s.levelPending = true ↔ (∃ q ∈ s.mig.backQueue, q.reason = .level) ∨
    ∃ m, s.mig.current = some m ∧ m.reason = .level := by
  unfold State.levelPending
  cases s.mig.current <;> simp

theorem levelCheck_protected (hs : s.unit.state ≠ .online) : levelCheck s = s.leveled .protected_ none [] := by
  rw [levelCheck, if_pos hs, setLevelCheck_eq]

theorem levelCheck_pending (hs : s.unit.state = .online) (hp : s.levelPending = true) :
    levelCheck s = s.leveled .levelPending none [] := by
  rw [levelCheck, if_neg (not_not.mpr hs), if_pos hp, setLevelCheck_eq]

theorem levelCheck_noSpare (hs : s.unit.state = .online) (hp : ¬s.levelPending = true) (hpool : s.map.pool = []) :
    levelCheck s = s.leveled .noSpare none [] := by
  simp only [levelCheck, if_neg (not_not.mpr hs), if_neg hp, hpool, setLevelCheck_eq]

theorem levelCheck_compares {head : Nat} {rest : List Nat} {hot : FrameRecord × Nat} (hs : s.unit.state = .online)
    (hp : ¬s.levelPending = true) (hpool : s.map.pool = head :: rest) (hhot : hottestOf s.map.frames = some hot) :
    levelCheck s = compareLevel hot head s := by
  simp only [levelCheck, if_neg (not_not.mpr hs), if_neg hp, hpool, hhot]

/-- A LEVEL request joins the queue but where its frame is queued, moving or overdue, or the queue is full (R84). -/
theorem levelJoins_iff (hs : s.unit.state = .online) (owner : Nat) : s.levelJoins owner = true ↔
    ¬(s.mig.isQueued owner = true ∨ s.mig.isMoving owner = true ∨ s.overdueFrame owner = true ∨
      8 ≤ s.mig.queued) := by
  have hroom : s.mig.room = true ↔ ¬8 ≤ s.mig.queued := decide_eq_true_iff.trans Nat.not_le.symm
  simp [State.levelJoins, hs, hroom, and_assoc]

section
variable {hot head owner : Nat} {r hr : FrameRecord} (howner : r.owner = some owner) (hhead : s.frame? head = some hr)
include howner hhead

theorem compareLevel_eq : compareLevel (r, hot) head s =
    if hr.wear + s.time.active.levelThreshold ≤ r.wear then
      if s.levelJoins owner then s.leveled .queued (some ⟨hot, owner, r.wear, head, hr.wear⟩) [⟨owner, .level⟩]
      else s.leveled .dropped (some ⟨hot, owner, r.wear, head, hr.wear⟩) []
    else s.leveled .belowThreshold (some ⟨hot, owner, r.wear, head, hr.wear⟩) [] := by
  have hwear : wearIn s.map.frames head = hr.wear := by
    have hget : s.map.frames[head]? = some hr := hhead
    simp [wearIn, hget]
  simp only [compareLevel, howner, hwear, Option.getD_some, setLevelCheck_joinBack]
  simp only [setLevelCheck_eq]

end

/-- Whatever the outcome, the check's record has figures exactly where the check was made (R117). -/
theorem levelCheck_record (s : State) : ∃ outcome figures,
    (levelCheck s).mig.levelCheck = some ⟨s.time.tick, outcome, figures⟩ ∧
    (figures = none ↔ outcome ∈ [.protected_, .levelPending, .noSpare]) := by
  unfold levelCheck compareLevel
  dsimp only
  split
  · exact ⟨_, _, rfl, by simp⟩
  split
  · exact ⟨_, _, rfl, by simp⟩
  split
  · split
    · split <;> exact ⟨_, _, rfl, by simp⟩
    · exact ⟨_, _, rfl, by simp⟩
  · exact ⟨_, _, rfl, by simp⟩

end Sys2Proof.Machine
end

section
/-! SUPPORT. SWEEP_BOUNDARY in ONLINE and WRITE_PROTECTED: the commit, the sweep, the health evaluation and the sweep count
(R112, R128, R171 to R173, R180). -/

namespace Sys2Proof.Machine

variable {s : State}

/-! ### The steps of a boundary (R171 to R173, R180) -/

theorem boundaryCommit_time (hs : s.unit.state ≠ .recovering)
    (hlt : s.time.staged.lowWater < s.time.staged.highWater) : (boundaryCommit s).time = { s.time with
      active := s.time.staged
      nextBoundary := s.time.nextBoundary + BitVec.ofNat 32 s.time.staged.sweepPeriod } := by
  by_cases hequal : s.time.staged = s.time.active
  · rw [boundaryCommit_equal hequal, State.paced, hequal]
  · rw [boundaryCommit_installs hs hequal hlt]
    rfl

/-- SpareRemainingPct lies below its alert threshold (R180). -/
def State.spareIsLow (s : State) : Bool :=
  decide (100 * s.map.pool.length / s.spareCount < s.time.active.spareAlert)

/-- LifeUsedPct has reached its alert threshold (R180). -/
def State.lifeIsHigh (s : State) : Bool :=
  decide (s.time.active.lifeAlert ≤ min 255 (100 * s.hottestWear / s.retireWear))

theorem evaluateHealth_eq (s : State) : evaluateHealth s = { s with
    health := { s.health with spareLow := s.spareIsLow, lifeHigh := s.lifeIsHigh }
    link := if (s.spareIsLow && !s.health.spareLow) || (s.lifeIsHigh && !s.health.lifeHigh) then
        s.flagged .healthAlert else s.link } := by
  unfold evaluateHealth
  dsimp only
  split
  · rename_i h
    have h : ((s.spareIsLow && !s.health.spareLow) || (s.lifeIsHigh && !s.health.lifeHigh)) = true := h
    rw [if_pos h]
    rfl
  · rename_i h
    have h : ¬((s.spareIsLow && !s.health.spareLow) || (s.lifeIsHigh && !s.health.lifeHigh)) = true := h
    rw [if_neg h]
    rfl

/-- The sweep count one up, to its highest value (R173). -/
def State.counted (s : State) : State :=
  { s with time := { s.time with sweeps := if s.time.sweeps < 65535 then s.time.sweeps + 1 else s.time.sweeps } }

theorem countSweep_eq (s : State) : countSweep s =
    if s.time.active.checkpointEvery ≤ s.counted.time.sweeps then triggerCheckpoint s.counted else s.counted := rfl

theorem countSweep_time (s : State) : (countSweep s).time = s.counted.time := by
  rw [countSweep_eq]
  split <;> simp

theorem triggerCheckpoint_isSome (s : State) : (triggerCheckpoint s).jrn.checkpoint.isSome = true := by
  rcases triggerCheckpoint_cases s with ⟨-, he⟩ | ⟨hbusy, he⟩ <;> rw [he]
  · rfl
  · exact Option.isSome_iff_ne_none.mpr hbusy

/-- The wear sweep and the health evaluation, between the commit and the sweep count. -/
def swept (s : State) : State := evaluateHealth (wearSweep (boundaryCommit s))

theorem boundaryWork_running (hs : s.running = true) : boundaryWork s = ringTrigger (countSweep (swept s)) := by
  have ht : (boundaryCommit s).running = true := by simpa [State.running] using hs
  rw [boundaryWork, boundarySweep, if_pos ht, swept]

/-! ### The results that stay to be read (R117, R128, R173, R180) -/

/-- What the alert conditions read: the tables, Unit Control and the active set. -/
theorem alertConditions_of_eq {t : State} (hmap : t.map = s.map) (hunit : t.unit = s.unit) :
    t.spareIsLow = decide (100 * s.map.pool.length / s.spareCount < t.time.active.spareAlert) ∧
    t.lifeIsHigh = decide (t.time.active.lifeAlert ≤ min 255 (100 * s.hottestWear / s.retireWear)) := by
  have hspares : t.spareCount = s.spareCount := by simp only [State.spareCount, State.geometryInUse, hunit]
  have hretire : t.retireWear = s.retireWear := by simp only [State.retireWear, State.geometryInUse, hunit]
  have hhottest : t.hottestWear = s.hottestWear := by simp only [State.hottestWear, hmap]
  rw [State.spareIsLow, State.lifeIsHigh, hmap, hspares, hretire, hhottest]
  exact ⟨rfl, rfl⟩

theorem swept_time (s : State) : (swept s).time = (boundaryCommit s).time := by simp [swept]

theorem swept_alerts (s : State) : (swept s).health.alerts =
    (decide (100 * s.map.pool.length / s.spareCount < (swept s).time.active.spareAlert),
      decide ((swept s).time.active.lifeAlert ≤ min 255 (100 * s.hottestWear / s.retireWear))) := by
  obtain ⟨hlow, hhigh⟩ := alertConditions_of_eq (s := s) (t := wearSweep (boundaryCommit s)) (by simp) (by simp)
  rw [swept, evaluateHealth_eq, HealthMonitor.alerts, hlow, hhigh]

/-- HEALTH_ALERT is raised where an alert flag has become set (R180). -/
theorem swept_raised (h : ((swept s).health.spareLow = true ∧ s.health.spareLow = false) ∨
    ((swept s).health.lifeHigh = true ∧ s.health.lifeHigh = false)) : (swept s).raised .healthAlert = true := by
  have hhealth : (wearSweep (boundaryCommit s)).health = s.health := by simp
  rw [swept, evaluateHealth_eq, ← hhealth] at h
  have hset : (((wearSweep (boundaryCommit s)).spareIsLow && !(wearSweep (boundaryCommit s)).health.spareLow) ||
      ((wearSweep (boundaryCommit s)).lifeIsHigh && !(wearSweep (boundaryCommit s)).health.lifeHigh)) = true := by
    simpa using h
  have hraised : (raise .healthAlert (wearSweep (boundaryCommit s))).raised .healthAlert = true := by
    simp [raise_raised]
  rw [swept, evaluateHealth_eq, if_pos hset]
  exact hraised

theorem swept_record (s : State) : ∃ outcome figures,
    (swept s).mig.levelCheck = some ⟨s.time.tick, outcome, figures⟩ ∧
    (figures = none ↔ outcome ∈ [.protected_, .levelPending, .noSpare]) := by
  obtain ⟨hcommit, -, -⟩ := boundaryCommit_commits s
  have htick : (requeue (boundaryCommit s)).time.tick = s.time.tick := by simpa using hcommit
  have hrecord := levelCheck_record (requeue (boundaryCommit s))
  rw [htick] at hrecord
  simpa [swept, wearSweep] using hrecord

theorem countSweep_sweepKept (s : State) : SweepKept s (countSweep s) := by
  have hcounted : SweepKept s s.counted := ⟨rfl, rfl, id, id⟩
  rw [countSweep_eq]
  split
  · exact triggerCheckpoint_sweepKept hcounted
  · exact hcounted

theorem countSweep_checkpoint (h : s.time.active.checkpointEvery ≤ s.counted.time.sweeps) :
    (countSweep s).jrn.checkpoint.isSome = true := by
  rw [countSweep_eq, if_pos h]
  exact triggerCheckpoint_isSome _

/-- After the sweep count, the ring trigger and the rest of the happening keep the sweep's results. -/
theorem boundaryWork_sweepKept (hs : s.running = true) :
    SweepKept (countSweep (swept s)) (settle (boundaryWork s)) := by
  rw [boundaryWork_running hs]
  exact (ringTrigger_sweepKept (.refl _)).trans (settle_sweepKept _)

theorem settle_boundaryWork_time (hs : s.running = true) (hlt : s.time.staged.lowWater < s.time.staged.highWater) :
    (settle (boundaryWork s)).time = { s.time with
      active := s.time.staged
      nextBoundary := s.time.nextBoundary + BitVec.ofNat 32 s.time.staged.sweepPeriod
      sweeps := if s.time.sweeps < 65535 then s.time.sweeps + 1 else s.time.sweeps } := by
  have hnot : s.unit.state ≠ .recovering := by rcases (running_iff s).mp hs with h | h <;> simp [h]
  have hring : (boundaryWork s).time = (countSweep (swept s)).time := by simp [boundaryWork_running hs]
  rw [(settle_frame _).1, hring, countSweep_time, State.counted, swept_time, boundaryCommit_time hnot hlt]

/-! ### The whole effect, where nothing is offered again and no checkpoint starts -/

theorem wantedFrames_eq_nil (h : ∀ r ∈ s.map.frames, r.role = .mapped → r.wanted = true → r.overdue = true) :
    s.wantedFrames = [] := by
  refine List.eq_nil_iff_forall_not_mem.mpr fun f hf => ?_
  obtain ⟨r, hr, hrole, hmark, hoverdue⟩ := mem_wantedFrames.mp hf
  simp [h r (List.mem_of_getElem? hr) hrole hmark] at hoverdue

theorem countSweep_passes (h : s.jrn.checkpoint ≠ none ∨ s.counted.time.sweeps < s.time.active.checkpointEvery) :
    countSweep s = s.counted := by
  rw [countSweep_eq]
  split
  · rename_i hreached
    rcases triggerCheckpoint_cases s.counted with ⟨hidle, -⟩ | ⟨-, he⟩
    · exact absurd hreached (Nat.not_le.mpr (h.resolve_left (not_not.mpr hidle)))
    · exact he
  · rfl

/-- The state after a boundary that re-queues nothing, changes no setting and starts no checkpoint. -/
def State.boundaryDone (s : State) (outcome : LevelOutcome) (figures : Option LevelFigures)
    (joined : List MigRequest) : State :=
  { s.paced.counted with
    mig := (s.leveled outcome figures joined).mig
    health := { s.health with spareLow := s.spareIsLow, lifeHigh := s.lifeIsHigh }
    link := if (s.spareIsLow && !s.health.spareLow) || (s.lifeIsHigh && !s.health.lifeHigh) then
        s.flagged .healthAlert else s.link }

theorem boundaryWork_done {outcome : LevelOutcome} {figures : Option LevelFigures} {joined : List MigRequest}
    (hs : s.running = true) (hequal : s.time.staged = s.time.active)
    (hwanted : ∀ r ∈ s.map.frames, r.role = .mapped → r.wanted = true → r.overdue = true)
    (hidle : s.jrn.checkpoint ≠ none ∨
      (s.ringUsed < 1536 ∧ s.counted.time.sweeps < s.time.active.checkpointEvery))
    (hlevel : levelCheck s.paced = s.paced.leveled outcome figures joined) :
    boundaryWork s = s.boundaryDone outcome figures joined := by
  have hrequeue : requeue s.paced = s.paced :=
    requeue_none (by simp [wantedFrames_eq_nil (s := s.paced) hwanted])
  have hswept : (swept s).counted = s.boundaryDone outcome figures joined := by
    rw [swept, boundaryCommit_equal hequal, wearSweep, hrequeue, hlevel, evaluateHealth_eq]
    rfl
  have hcount : countSweep (swept s) = (swept s).counted := by
    rw [swept, boundaryCommit_equal hequal, wearSweep, hrequeue, hlevel, evaluateHealth_eq]
    exact countSweep_passes (hidle.imp_right And.right)
  rw [boundaryWork_running hs, hcount, hswept]
  exact ringTrigger_passes fun ⟨hused, _, hnone⟩ =>
    hidle.elim (absurd hnone) fun ⟨hless, _⟩ => absurd hused (Nat.not_le.mpr hless)

/-- Settles O17: what the sweep leaves stays through the rest of the happening; and each outcome of the level check. -/
theorem sweepBoundaryInServiceSweepsAndCounts : Obligations.SweepBoundaryInServiceSweepsAndCounts := by
  refine ⟨fun s hstate hf hlt => ?_, ?_⟩
  · have hs : (beginHappening s).running = true := (running_iff s).mpr hstate
    have hnot : s.unit.state ≠ .recovering := by rcases hstate with h | h <;> simp [h]
    have hswept := (swept_time _).trans (boundaryCommit_time (s := beginHappening s) hnot hlt)
    have hkept := boundaryWork_sweepKept hs
    have hsweep := (countSweep_sweepKept _).trans hkept
    have htime := settle_boundaryWork_time hs hlt
    have halerts := hsweep.alerts.trans (swept_alerts _)
    rw [hswept] at halerts
    obtain ⟨hlow, hhigh⟩ := Prod.mk.inj halerts
    obtain ⟨hsweptLow, hsweptHigh⟩ := Prod.mk.inj hsweep.alerts
    obtain ⟨outcome, figures, hrecord, hfigures⟩ := swept_record (beginHappening s)
    refine ⟨_, exec_sweepBoundary_falls (not_reset_of_running hs) hf, htime, hlow, hhigh, fun h => ?_, fun h => ?_,
      outcome, figures, hsweep.levelCheck.trans hrecord, hfigures⟩
    · rw [hsweptLow, hsweptHigh] at h
      exact hsweep.raised (swept_raised h)
    · refine hkept.checkpoint (countSweep_checkpoint ?_)
      rw [htime] at h
      rw [State.counted, hswept]
      exact h
  · rintro s used count low high hf hequal hwanted rfl rfl hidle rfl rfl done hdone pending hpending
    have hexec : ∀ {outcome figures joined}, s.running = true →
        levelCheck (beginHappening s).paced = (beginHappening s).paced.leveled outcome figures joined →
        exec .sweepBoundary s = done outcome figures joined := by
      intro outcome figures joined hs hlevel
      rw [exec_sweepBoundary_falls (not_reset_of_running hs) hf,
        boundaryWork_done (s := beginHappening s) hs hequal hwanted hidle hlevel, hdone]
      rfl
    have honline : s.unit.state = .online → s.running = true := fun h => (running_iff s).mpr (.inl h)
    have hlevel : pending ↔ (beginHappening s).paced.levelPending = true := hpending.trans levelPending_iff.symm
    refine ⟨fun hs => ?_, fun hs hp => ?_, fun hs hp hpool => ?_, ?_⟩
    · exact hexec ((running_iff s).mpr (.inr hs)) (levelCheck_protected (by simp [State.paced, hs]))
    · exact hexec (honline hs) (levelCheck_pending hs (hlevel.mp hp))
    · exact hexec (honline hs) (levelCheck_noSpare hs (mt hlevel.mpr hp) hpool)
    · rintro hot head owner rest r hr hs hp hpool hhead hhot hrole hhottest howner figures rfl drops hdrops
      have hcompares := (levelCheck_compares (s := (beginHappening s).paced) hs (mt hlevel.mpr hp) hpool
        (hottestOf_eq hhot hrole hhottest)).trans (compareLevel_eq howner hhead)
      have hjoins : (beginHappening s).paced.levelJoins owner = true ↔ ¬drops :=
        (levelJoins_iff (s := (beginHappening s).paced) hs owner).trans (not_congr hdrops.symm)
      refine ⟨fun hless => ?_, fun hle hd => ?_, fun hle hd => ?_⟩
      · exact hexec (honline hs) (hcompares.trans (if_neg (Nat.not_le.mpr hless)))
      · exact hexec (honline hs) ((hcompares.trans (if_pos hle)).trans (if_neg fun h => hjoins.mp h hd))
      · exact hexec (honline hs) ((hcompares.trans (if_pos hle)).trans (if_pos (hjoins.mpr hd)))

end Sys2Proof.Machine
end

section
/-! SUPPORT. The bytes of the management link's messages: requests read back, responses read out, and the worked figures (R182,
R183; Tables 1.1, 1.3, 11.1). -/

namespace Sys2Proof.Machine

set_option Elab.async false

/-- Settles O60: the model's functions, evaluated at the manual's figures. -/
theorem workedFiguresOfTheManual : Obligations.WorkedFiguresOfTheManual := by
  unfold Obligations.WorkedFiguresOfTheManual
  decide +kernel

/-! ### Requests read back (R182, R183) -/

section
variable {params : List Byte} (hlen : params.length ≤ maxParams)
include hlen

/-- The parameter length byte of a request message gives the length back. -/
theorem lengthByte_toNat : (BitVec.ofNat 8 params.length).toNat = params.length := by
  rw [BitVec.toNat_ofNat, Nat.mod_eq_of_lt]
  unfold maxParams at hlen
  omega

theorem wellFormed_requestMessage (code tag : Byte) : wellFormedTransfer (requestMessage code tag params) = true := by
  simp [wellFormedTransfer, requestMessage, lengthByte_toNat hlen, hlen, Nat.add_comm 3]
  omega

theorem decodeTransfer_requestMessage (code tag : Byte) :
    decodeTransfer (requestMessage code tag params) = decodeRequest code tag params := by
  rw [decodeTransfer, if_pos (wellFormed_requestMessage hlen code tag)]
  simp [requestMessage, lengthByte_toNat hlen]

end

/-- A code that Table 11.3 does not list is read as an unknown command. -/
theorem decodeRequest_unknown {code : Byte} (h : knownCode code = false) (tag : Byte) (params : List Byte) :
    decodeRequest code tag params = .unknownCommand code tag params := by
  unfold decodeRequest
  split
  case h_23 => rfl
  all_goals simp_all [knownCode, tableCodes]

theorem decodeRequest_fence (tag : Byte) (params : List Byte) :
    decodeRequest 0x30#8 tag params =
      if persistentChoice params then .setFencePersistent tag params else .setFenceVolatile tag params := rfl

/-- A command of Table 11.3 in the form a request can carry is what its code names. -/
theorem decodeRequest_commandCode {i : Instr} {code : Nat} {tag : Byte} {params : List Byte} (hwf : linkWf i = true)
    (hcode : commandCode i = some code) (hfields : linkFields i = some (tag, params)) :
    params.length ≤ maxParams ∧ decodeRequest (BitVec.ofNat 8 code) tag params = i := by
  cases i
  case setFenceVolatile =>
    cases hcode
    cases hfields
    obtain ⟨hlen, hchoice⟩ : params.length ≤ maxParams ∧ persistentChoice params = false := by simpa [linkWf] using hwf
    exact ⟨hlen, (decodeRequest_fence tag params).trans (if_neg (by simp [hchoice]))⟩
  case setFencePersistent =>
    cases hcode
    cases hfields
    obtain ⟨hlen, hchoice⟩ : params.length ≤ maxParams ∧ persistentChoice params = true := by simpa [linkWf] using hwf
    exact ⟨hlen, (decodeRequest_fence tag params).trans (if_pos hchoice)⟩
  case getStatus | getHealth | getIdentity | readMapEntry | readFrameRecord | readPoolEntry | getSetting | stageSetting |
      commitSettings | discardStaged | flush | requestMigration | abortMigration | checkpointNow | prepareOff | resume |
      restart | format | readEvents | clearEvents | setEventEnable =>
    cases hcode
    cases hfields
    exact ⟨of_decide_eq_true hwf, rfl⟩
  all_goals exact nomatch hcode

/-- Settles O59: the receiver finds the message well formed, and its code names the command. -/
theorem decodedTransferIsTheEncodedCommand : Obligations.DecodedTransferIsTheEncodedCommand := by
  intro i bytes hwf hbytes
  unfold encodeTransfer at hbytes
  split at hbytes
  case h_1 code tag params =>
    cases hbytes
    obtain ⟨hlen, hcode⟩ : params.length ≤ maxParams ∧ knownCode code = false := by simpa [linkWf] using hwf
    rw [decodeTransfer_requestMessage hlen, decodeRequest_unknown hcode]
  case h_2 bytes' =>
    cases hbytes
    have hnot : wellFormedTransfer bytes = false := by simpa [linkWf] using hwf
    rw [decodeTransfer, if_neg (by simp [hnot])]
  case h_3 =>
    split at hbytes
    · cases hbytes
      obtain ⟨hlen, hdecode⟩ := decodeRequest_commandCode hwf ‹_› ‹_›
      rw [decodeTransfer_requestMessage hlen, hdecode]
    · contradiction

/-! ### Responses read out (R182) -/

theorem noResponse_message : responseMessage 0x07#8 0x00#8 [] = [0x07#8, 0x00#8, 0x00#8, 0x16#8] := by decide +kernel

/-- The byte of each place of a read: the message's, and 0xFF past its CRC-8. -/
theorem readBytes_eq_map (message : List Byte) (n : Nat) :
    readBytes message n = (List.range n).map fun i => message[i]?.getD 0xFF#8 := by
  refine List.ext_getElem (by simp [readBytes]; omega) fun i _ hi => ?_
  rw [List.length_map, List.length_range] at hi
  rcases lt_or_ge i message.length with hm | hm
  · simp [readBytes, hi, hm]
  · simp [readBytes, hm]

theorem exec_responseRead {s : State} (hr : s.unit.state ≠ .reset) (n : Nat) :
    exec (.responseRead n) s = .next (readTransfer n (beginHappening s)) :=
  congrArg Host.Outcome.next (if_neg hr)

/-- Settles O58: the message read is the pending response's, or NO_RESPONSE's. -/
theorem responseReadConsumesAtItsCrc : Obligations.ResponseReadConsumesAtItsCrc := by
  intro n s hr message hmessage
  have hread : (beginHappening s).readMessage = message := by
    rw [hmessage, State.readMessage, show (beginHappening s).link = s.link from rfl]
    cases s.link.response with
    | none => exact noResponse_message
    | some r => rfl
  rw [exec_responseRead hr, readTransfer, hread, readBytes_eq_map]
  by_cases h : message.length ≤ n
  · simp only [if_pos h]
    rfl
  · simp only [if_neg h]
    rfl

end Sys2Proof.Machine
end

section
/-! SUPPORT. How link requests are judged, whatever their command, and the requests refused (R182, R183, R184); the event
commands (R185, R186). -/

namespace Sys2Proof.Machine

set_option Elab.async false

/-! ### The checks of R183 that were not yet said -/

section
variable {tag : Byte} {params : List Byte} {len : Nat} {permitted argsOk : State → Bool} {run : State → State}
  {s : State}

/-- In RESET the link does not answer (R182). -/
theorem judge_inReset (hr : s.unit.state = .reset) : judge tag params len permitted argsOk run s = s := if_pos hr

/-- Check 3 of R183 fails: the parameter length is not the command's. -/
theorem judge_badLength (hr : s.unit.state ≠ .reset) (hl : params.length ≠ len) :
    judge tag params len permitted argsOk run s = respond tag .badArg [] s := by
  simp [judge, hr, hl]

end

/-! ### Quiet states (log entry 1) -/

/-- Nothing follows from a pending response. -/
theorem settle_withResponse {s : State} (hq : s.quiet = true) (tag : Byte) (status : Status) (results : List Byte) :
    settle (s.withResponse tag status results) = s.withResponse tag status results :=
  settle_of_quiet ((quiet_dressed s Outputs.none s.pending (s.withResponse tag status results).link s.health).trans hq)

theorem settle_beginHappening {s : State} (hq : s.quiet = true) :
    settle (beginHappening s) = { s with out := Outputs.none } :=
  settle_of_quiet ((quiet_dressed s Outputs.none s.pending s.link s.health).trans hq)

/-! ### Every command of Table 11.3 is judged by R183 -/

/-- What the judgement of a request leaves, u, is where the command ends, or the rest of a happening follows it. -/
def EndsAt (c : Instr) (s u : State) : Prop := exec c s = .next u ∨ exec c s = .next (settle u)

/-- In the four states of R184 no state-changing command is permitted. -/
theorem not_permitted_of_linkBlocked {s : State} (h : s.linkBlocked = true) : ∀ permitted ∈
    [State.mayStage, State.running, State.mayFenceVolatile, State.mayFlush, State.mayAbort, State.mayResume,
      State.mayRestart, State.mayFormat], permitted s = false := by
  have hstate : s.unit.state = .drainLock ∨ s.unit.state = .closing ∨ s.unit.state = .recovering ∨
      s.unit.state = .formatting := by simpa [State.linkBlocked, or_assoc] using h
  rcases hstate with hs | hs | hs | hs <;>
    simp [State.mayStage, State.running, State.mayFenceVolatile, State.mayFlush, State.mayAbort, State.mayResume,
      State.mayRestart, State.mayFormat, State.linkBlocked, hs]

theorem setFence_judged (tag : Byte) (params : List Byte) (s : State) : ∃ permitted argsOk run,
    setFence tag params s = judge tag params 3 permitted argsOk run s ∧
    (∀ u : State, u.linkBlocked = true → permitted u = false) := by
  by_cases hc : persistentChoice params = true
  · exact ⟨State.running, _, _, if_pos hc, fun u hu => not_permitted_of_linkBlocked hu _ (by simp)⟩
  · exact ⟨State.mayFenceVolatile, _, _, if_neg hc, fun u hu => not_permitted_of_linkBlocked hu _ (by simp)⟩

/-- A command of Table 11.3 is judged at the start of its happening, by its parameter length and, where it changes state, by
a permission that the four states of R184 do not give. -/
theorem exec_judged {c : Instr} {tag : Byte} {params : List Byte} (hfields : linkFields c = some (tag, params))
    (s : State) : ∃ len permitted argsOk run, paramLength c = some len ∧
      EndsAt c s (judge tag params len permitted argsOk run (beginHappening s)) ∧
      (stateChanging c = true → ∀ u : State, u.linkBlocked = true → permitted u = false) := by
  cases c
  case setFenceVolatile | setFencePersistent =>
    cases hfields
    obtain ⟨permitted, argsOk, run, hjudge, hblocked⟩ := setFence_judged tag params (beginHappening s)
    exact ⟨3, permitted, argsOk, run, rfl, hjudge ▸ .inr rfl, fun _ => hblocked⟩
  case getStatus | getHealth | getIdentity | readMapEntry | readFrameRecord | readPoolEntry | getSetting | readEvents |
      clearEvents | setEventEnable =>
    cases hfields
    exact ⟨_, _, _, _, rfl, .inl rfl, nofun⟩
  case stageSetting | discardStaged =>
    cases hfields
    exact ⟨_, _, _, _, rfl, .inl rfl, fun _ u hu => not_permitted_of_linkBlocked hu _ (by simp)⟩
  case commitSettings | flush | requestMigration | abortMigration | checkpointNow | prepareOff | resume | restart |
      format =>
    cases hfields
    exact ⟨_, _, _, _, rfl, .inr rfl, fun _ u hu => not_permitted_of_linkBlocked hu _ (by simp)⟩
  all_goals exact nomatch hfields

/-- From a quiet state nothing follows a refusal. -/
theorem EndsAt.refused {c : Instr} {s u : State} {tag : Byte} {status : Status} (h : EndsAt c s u)
    (hq : s.quiet = true) (hu : u = respond tag status [] (beginHappening s)) :
    exec c s = .next (s.withResponse tag status []) := by
  rw [hu, respond_beginHappening] at h
  rcases h with h | h
  · exact h
  · rw [h, settle_withResponse hq]

/-! ### Requests refused (R182, R183, R184) -/

section
variable {s : State}

theorem exec_requestNotWellFormed (hr : s.unit.state ≠ .reset) {bytes : List Byte}
    (hbytes : wellFormedTransfer bytes = false) :
    exec (.requestNotWellFormed bytes) s = .next (s.withResponse (bytes[1]?.getD 0#8) .badCrc []) :=
  congrArg Host.Outcome.next ((if_neg (by simp [hr, hbytes])).trans (respond_beginHappening _ _ s))

theorem exec_unknownCommand (hr : s.unit.state ≠ .reset) {code : Byte} (hcode : knownCode code = false) (tag : Byte)
    (params : List Byte) :
    exec (.unknownCommand code tag params) s = .next (s.withResponse tag .unknownCommand []) :=
  congrArg Host.Outcome.next ((if_neg (by simp [hr, hcode])).trans (respond_beginHappening _ _ s))

theorem exec_badLength (hq : s.quiet = true) (hr : s.unit.state ≠ .reset) {c : Instr} {tag : Byte} {params : List Byte}
    {n : Nat} (hfields : linkFields c = some (tag, params)) (hn : paramLength c = some n) (hne : params.length ≠ n) :
    exec c s = .next (s.withResponse tag .badArg []) := by
  obtain ⟨len, permitted, argsOk, run, hlen, hends, -⟩ := exec_judged hfields s
  cases hn.symm.trans hlen
  exact hends.refused hq (judge_badLength hr hne)

theorem exec_blocked (hq : s.quiet = true) (hs : s.unit.state ∈ [.drainLock, .closing, .recovering, .formatting])
    {c : Instr} {tag : Byte} {params : List Byte} (hc : stateChanging c = true)
    (hfields : linkFields c = some (tag, params)) (hn : paramLength c = some params.length) :
    exec c s = .next (s.withResponse tag .badState []) := by
  obtain ⟨len, permitted, argsOk, run, hlen, hends, hpermitted⟩ := exec_judged hfields s
  cases hn.symm.trans hlen
  have hblocked : (beginHappening s).linkBlocked = true := by simpa [State.linkBlocked, or_assoc] using hs
  have hr : (beginHappening s).unit.state ≠ .reset := fun hr => by
    rw [State.linkBlocked, hr] at hblocked
    exact absurd hblocked (by decide)
  exact hends.refused hq (judge_badState hr rfl (hpermitted hc _ hblocked))

/-- The link does not answer its address in RESET (R182). -/
theorem exec_fromLink_inReset (hq : s.quiet = true) (hr : s.unit.state = .reset) {c : Instr} (hc : fromLink c = true) :
    exec c s = .next { s with out := Outputs.none } := by
  cases hfields : linkFields c with
  | some fields =>
    obtain ⟨len, permitted, argsOk, run, -, hends, -⟩ := exec_judged hfields s
    rw [judge_inReset (by exact hr)] at hends
    rcases hends with h | h
    · exact h
    · rw [h, settle_beginHappening hq]
  | none =>
    have hunanswered : ∀ p : Bool, (decide ((beginHappening s).unit.state = .reset) || p) = true := by simp [hr]
    unfold fromLink at hc
    rw [hfields] at hc
    cases c
    case responseRead => exact congrArg Host.Outcome.next (if_pos hr)
    case unknownCommand => exact congrArg Host.Outcome.next (if_pos (hunanswered _))
    case requestNotWellFormed => exact congrArg Host.Outcome.next (if_pos (hunanswered _))
    all_goals simp at hc

end

/-- Settles O57: each refusal is a check of R183 that fails, and nothing follows it. -/
theorem refusedRequestsChangeOnlyTheResponse : Obligations.RefusedRequestsChangeOnlyTheResponse := fun _ hq =>
  ⟨fun hr => ⟨fun _ => exec_requestNotWellFormed hr, fun _ tag params hcode => exec_unknownCommand hr hcode tag params,
    fun _ _ _ _ => exec_badLength hq hr, fun _ _ _ hc hfields hn hs => exec_blocked hq hs hc hfields hn⟩,
    fun hr _ => exec_fromLink_inReset hq hr⟩

/-! ### The event commands (R185, R186) -/

theorem eventMask_eq (m0 m1 m2 m3 : Byte) : eventMask [m0, m1, m2, m3] =
    BitVec.ofNat 17 (m0.toNat + 256 * (m1.toNat + 256 * (m2.toNat + 256 * m3.toNat))) := by
  simp [eventMask, paramField, leValue]

section
variable {s : State} (hr : s.unit.state ≠ .reset) (tag m0 m1 m2 m3 : Byte)
include hr

theorem exec_clearEvents : exec (.clearEvents tag [m0, m1, m2, m3]) s = .next { s with
    out := Outputs.none
    link := ⟨some ⟨.ok, tag, []⟩, s.link.flags &&& ~~~eventMask [m0, m1, m2, m3], s.link.enables⟩ } :=
  congrArg Host.Outcome.next (judge_run (s := beginHappening s) hr rfl rfl rfl)

theorem exec_setEventEnable : exec (.setEventEnable tag [m0, m1, m2, m3]) s = .next { s with
    out := Outputs.none, link := ⟨some ⟨.ok, tag, []⟩, s.link.flags, eventMask [m0, m1, m2, m3]⟩ } :=
  congrArg Host.Outcome.next (judge_run (s := beginHappening s) hr rfl rfl rfl)

end

/-- The attention output outside RESET (R186). -/
theorem attention_iff {s : State} (hr : s.unit.state ≠ .reset) :
    s.attention = true ↔ ∃ i, s.link.flags.getLsbD i = true ∧ s.link.enables.getLsbD i = true := by
  have hzero : s.link.flags &&& s.link.enables = 0#17 ↔
      ∀ i, (s.link.flags &&& s.link.enables).getLsbD i = false :=
    ⟨fun h i => by rw [h, BitVec.getLsbD_zero], fun h => BitVec.eq_of_getLsbD_eq fun i _ => by rw [h, BitVec.getLsbD_zero]⟩
  simp [State.attention, hr, hzero]

/-- Settles O56: both commands pass the checks of R183, and act bit by bit. -/
theorem eventCommandsActOnTheirOwnBits : Obligations.EventCommandsActOnTheirOwnBits := by
  intro tag m0 m1 m2 m3 s hr mask hmask
  rw [← eventMask_eq] at hmask
  subst hmask
  refine ⟨⟨_, exec_clearEvents hr tag m0 m1 m2 m3, rfl, fun i => ?_⟩,
    _, exec_setEventEnable hr tag m0 m1 m2 m3, rfl, attention_iff (by exact hr)⟩
  rcases lt_or_ge i 17 with hi | hi
  · simp [hi]
  · simp [BitVec.getLsbD_of_ge s.link.flags i hi]

end Sys2Proof.Machine
end

section
/-! SUPPORT. The payloads of the link's queries as fields laid end to end (R187; Tables 11.5 to 11.7), and the table reads (R7, R10,
R13, R174, R184). -/

namespace Sys2Proof.Machine

set_option Elab.async false

/-! ### Fields laid end to end -/

/-- The bytes of fields, each given by its first byte, its length and its value. -/
def fieldBytes (fs : List (Nat × Nat × Nat)) : List Byte := fs.flatMap fun f => leBytes f.2.1 f.2.2

/-- The fields follow one another from byte n on. -/
def Adjacent : Nat → List (Nat × Nat × Nat) → Prop
  | _, [] => True
  | n, f :: fs => f.1 = n ∧ Adjacent (n + f.2.1) fs

theorem fieldBytes_cons (f : Nat × Nat × Nat) (fs : List (Nat × Nat × Nat)) :
    fieldBytes (f :: fs) = leBytes f.2.1 f.2.2 ++ fieldBytes fs := rfl

theorem fieldBytes_append (fs gs : List (Nat × Nat × Nat)) :
    fieldBytes (fs ++ gs) = fieldBytes fs ++ fieldBytes gs := List.flatMap_append

theorem fieldBytes_length (fs : List (Nat × Nat × Nat)) : (fieldBytes fs).length = (fs.map (·.2.1)).sum := by
  simp [fieldBytes, List.length_flatMap]

/-- Each of the fields reads back its value, or the low bytes of a value that outgrew it. -/
theorem leValue_field_from {fs : List (Nat × Nat × Nat)} (pre : List Byte) (h : Adjacent pre.length fs) :
    ∀ f ∈ fs, leValue (((pre ++ fieldBytes fs).drop f.1).take f.2.1) = f.2.2 % 256 ^ f.2.1 := by
  induction fs generalizing pre with
  | nil => simp
  | cons g fs ih =>
    obtain ⟨hstart, hrest⟩ := h
    rw [List.forall_mem_cons, fieldBytes_cons]
    refine ⟨?_, ?_⟩
    · rw [hstart, List.drop_left, List.take_left' (leBytes_length _ _), leValue_leBytes]
    · rw [← List.append_assoc]
      exact ih (pre ++ leBytes g.2.1 g.2.2) (by simpa using hrest)

theorem leValue_field {fs : List (Nat × Nat × Nat)} (h : Adjacent 0 fs) :
    ∀ f ∈ fs, leValue (((fieldBytes fs).drop f.1).take f.2.1) = f.2.2 % 256 ^ f.2.1 := leValue_field_from [] h

/-! ### The values of fields (R187, Table 11.11) -/

section
variable {α β : Type} [DecidableEq α] {code : α → Nat} {values : List α} (h : ∀ x, code x = values.idxOf x + 1)
include h

/-- An item that may be absent, by its code and by its place in its table. -/
theorem optCode_eq_codeIn (o : Option α) : optCode code o = codeIn values o := by
  cases o with
  | none => rfl
  | some x => exact h x

theorem optCode_eq_codeIn_map (g : β → α) (o : Option β) :
    optCode (fun x => code (g x)) o = codeIn values (o.map g) := by
  cases o with
  | none => rfl
  | some x => exact h (g x)

end

theorem UnitState.code_eq (x : UnitState) : x.code = unitStates.idxOf x := by cases x <;> rfl

theorem SafeOrigin.code_eq (x : SafeOrigin) : x.code = [.drainLock, .prepareOff].idxOf x + 1 := by cases x <;> rfl

theorem Standing.code_eq (x : Standing) : x.code = [.inUse, .invalid, .mismatch].idxOf x + 1 := by cases x <;> rfl

theorem FailCause.code_eq (x : FailCause) :
    x.code = [.secondTimeout, .noCheckpoint, .imageInconsistent, .formatProgramFail].idxOf x + 1 := by cases x <;> rfl

theorem Stage.code_eq (x : Stage) : x.code = [.emptying, .checkpoint, .shutdown].idxOf x + 1 := by cases x <;> rfl

theorem MigPhase.code_eq (x : MigPhase) : x.code = [.quiesce, .copy, .commitWait].idxOf x + 1 := by cases x <;> rfl

theorem Reason.code_eq (x : Reason) : x.code = reasons.idxOf x + 1 := by cases x <;> rfl

theorem CheckpointPhase.code_eq (x : CheckpointPhase) : x.code = [.starting, .image, .header].idxOf x + 1 := by
  cases x <;> rfl

theorem Area.code_eq (x : Area) : x.code = [.a, .b].idxOf x + 1 := by cases x <;> rfl

theorem MigResult.code_eq (x : MigResult) :
    x.code = [.committed, .aborted, .noSpare, .overdue, .evicted].idxOf x + 1 := by cases x <;> rfl

theorem LevelOutcome.code_eq (x : LevelOutcome) :
    x.code = [.queued, .dropped, .belowThreshold, .levelPending, .noSpare, .protected_].idxOf x + 1 := by
  cases x <;> rfl

theorem MediaEvent.code_eq (x : MediaEvent) :
    x.code = [.corrected, .uncorrectable, .programFail, .timeout, .secondTimeout].idxOf x + 1 := by cases x <;> rfl

theorem MediaClass.code_eq (x : MediaClass) : x.code = mediaClasses.idxOf x + 1 := by cases x <;> rfl

/-- A choice of two, coded 1 when it fails and 2 when it holds. -/
theorem choiceCode_eq (b : Bool) : (if b then 2 else 1) = [false, true].idxOf b + 1 := by cases b <;> rfl

theorem flagsByte (bs : List Bool) : [bitsByte bs] = leBytes 1 (flagsValue bs) := by
  have hbyte : bitsByte bs = BitVec.ofNat 8 (flagsValue bs) := by
    induction bs with
    | nil => rfl
    | cons b bs ih =>
      have hcons : bitsByte (b :: bs) = (if b then 1#8 else 0#8) ||| (bitsByte bs <<< 1) := rfl
      rw [hcons, ih, flagsValue]
      refine BitVec.eq_of_getLsbD_eq fun i hi => ?_
      rw [BitVec.getLsbD_or, BitVec.getLsbD_shiftLeft, BitVec.getLsbD_ofNat, BitVec.getLsbD_ofNat]
      cases i with
      | zero => cases b <;> simp
      | succ i =>
        have hi' : i < 8 := by omega
        cases b <;> simp [Nat.testBit_succ, hi, hi', Nat.add_mul_div_left]
  rw [hbyte]
  rfl

theorem countFlags_eq (m : Flags64) : countFlags m = ((List.range 64).filter fun i => m.getLsbD i).length :=
  List.countP_eq_length_filter

/-! ### Counts the payloads make (Tables 11.5, 11.6) -/

theorem optCode_eq_getD {α : Type} (f : α → Nat) (o : Option α) : optCode f o = (o.map f).getD 0 := rfl

theorem dirtyCount_eq (s : State) : s.dirtyCount = (s.buf.slots.filter fun sl => sl.draining = false).length := by
  simp [State.dirtyCount, List.countP_eq_length_filter]

theorem drainingCount_eq (s : State) :
    s.drainingCount = (s.buf.slots.filter fun sl => sl.draining = true).length := by
  simp [State.drainingCount, List.countP_eq_length_filter]

theorem waitQueueCount_eq (s : State) : s.waitQueueCount =
    (s.host.entries.filter fun e => e.kind = .write ∧ e.standing = .waiting ∧ e.mask ≠ 0#64).length := by
  have hqueue : TagEntry.inWaitQueue =
      fun e => decide (e.kind = .write ∧ e.standing = .waiting ∧ e.mask ≠ 0#64) := by
    funext e
    simp [TagEntry.inWaitQueue, TagEntry.waitingWrite, TagEntry.waits, Bool.and_assoc]
  rw [State.waitQueueCount, List.countP_eq_length_filter, hqueue]

theorem persistWaitingCount_eq (s : State) :
    s.persistWaitingCount = (s.host.entries.filter fun e => e.standing = .persistWaiting).length :=
  List.countP_eq_length_filter

theorem waitingOf_eq (s : State) (c : MediaClass) : s.waitingOf c = s.requestsOf c := List.countP_eq_length_filter

theorem targetOf_eq (o : Option Migration) :
    (o.map fun m => m.target.getD 0).getD 0 = (o.bind (·.target)).getD 0 := by cases o <;> rfl

theorem pendingPoisonCount_eq (o : Option Migration) : (o.map fun m => countFlags m.pendingPoison).getD 0 =
    ((List.range 64).filter fun i => ((o.map (·.pendingPoison)).getD 0#64).getLsbD i).length := by
  cases o with
  | none => rfl
  | some m => exact countFlags_eq m.pendingPoison

theorem retiredFrames_eq (s : State) : s.retiredFrames = (s.map.frames.filter fun r => r.role = .retired).length :=
  List.countP_eq_length_filter

theorem poisonedLines_eq (s : State) : s.poisonedLines =
    (s.map.entries.map fun e => ((List.range 64).filter fun i => e.poison.getLsbD i).length).sum := by
  simp only [← countFlags_eq, List.sum_eq_foldl, List.foldl_map]
  rfl

theorem reportedRecord_eq (s : State) : s.reportedRecord =
    if s.unit.standing = some .inUse ∨ s.unit.standing = some .mismatch then s.unit.geometry else none := by
  simp [State.reportedRecord]

theorem isSomeCode_eq {α : Type} (o : Option α) : (if o.isSome then 1 else 0) = o.isSome.toNat := by cases o <;> rfl

/-! ### The payloads are their fields (Tables 11.5 to 11.7) -/

theorem statusPayload_unit (s : State) :
    statusUnit s ++ statusPorts s ++ statusTime s = fieldBytes (statusFieldsUnit s) := by
  simp only [statusUnit, statusPorts, statusTime, statusFieldsUnit, fieldBytes, List.flatMap_cons, List.flatMap_nil,
    List.append_assoc, List.append_nil, flagsByte, UnitState.code_eq, optCode_eq_codeIn SafeOrigin.code_eq,
    optCode_eq_codeIn Standing.code_eq, optCode_eq_codeIn FailCause.code_eq, optCode_eq_codeIn Stage.code_eq,
    optCode_eq_codeIn_map MigPhase.code_eq, dirtyCount_eq, drainingCount_eq, waitQueueCount_eq, persistWaitingCount_eq,
    waitingOf_eq, State.abortPending]

theorem statusPayload_work (s : State) :
    statusMigration s ++ statusJournal s ++ statusDescriptor s = fieldBytes (statusFieldsWork s) := by
  simp only [statusMigration, statusJournal, statusDescriptor, statusFieldsWork, fieldBytes, List.flatMap_cons,
    List.flatMap_nil, List.append_assoc, List.append_nil, optCode_eq_codeIn_map Reason.code_eq,
    optCode_eq_codeIn_map CheckpointPhase.code_eq, optCode_eq_codeIn_map Area.code_eq,
    optCode_eq_codeIn_map choiceCode_eq, optCode_eq_getD, targetOf_eq, pendingPoisonCount_eq, State.ringUsed,
    ringUsed, Config.ringSlots]

theorem statusPayload_last (s : State) : statusResult s ++ statusLevel s = fieldBytes (statusFieldsLast s) := by
  simp only [statusResult, statusLevel, statusFieldsLast, fieldBytes, List.flatMap_cons, List.flatMap_nil,
    List.append_assoc, List.append_nil, optCode_eq_codeIn_map Reason.code_eq, optCode_eq_codeIn_map MigResult.code_eq,
    optCode_eq_codeIn_map LevelOutcome.code_eq, optCode_eq_getD]

theorem statusPayload_eq (s : State) : statusPayload s = fieldBytes (statusFields s) := by
  rw [statusFields, fieldBytes_append, fieldBytes_append, ← statusPayload_unit, ← statusPayload_work,
    ← statusPayload_last]
  simp only [statusPayload, List.append_assoc]

theorem healthPayload_eq (s : State) : healthPayload s = fieldBytes (healthFields s) := by
  simp only [healthPayload, healthFields, healthCounters, fieldBytes, List.flatMap_cons, List.flatMap_nil,
    List.append_assoc, List.append_nil, flagsByte, whenLoaded, State.spareRemainingPct, State.lifeUsedPct,
    State.checkpointSequence, retiredFrames_eq, poisonedLines_eq, optCode_eq_codeIn_map MediaEvent.code_eq,
    optCode_eq_codeIn_map MediaClass.code_eq, optCode_eq_codeIn_map choiceCode_eq, optCode_eq_getD]

theorem identityPayload_eq (s : State) : identityPayload s = fieldBytes (identityFields s) := by
  simp only [identityPayload, identityFields, fieldBytes, List.flatMap_cons, List.flatMap_nil, List.append_assoc,
    List.append_nil, optCode_eq_codeIn Standing.code_eq, isSomeCode_eq, reportedRecord_eq, State.geometryInUse,
    optCode_eq_getD]

theorem statusFields_adjacent (s : State) : Adjacent 0 (statusFields s) := by
  simp [statusFields, statusFieldsUnit, statusFieldsWork, statusFieldsLast, Adjacent]

theorem healthFields_adjacent (s : State) : Adjacent 0 (healthFields s) := by simp [healthFields, Adjacent]

theorem identityFields_adjacent (s : State) : Adjacent 0 (identityFields s) := by simp [identityFields, Adjacent]

theorem statusPayload_length (s : State) : (statusPayload s).length = 99 := by
  simp [statusPayload_eq, fieldBytes_length, statusFields, statusFieldsUnit, statusFieldsWork, statusFieldsLast]

theorem statusPayload_field (s : State) :
    ∀ f ∈ statusFields s, leValue (((statusPayload s).drop f.1).take f.2.1) = f.2.2 % 256 ^ f.2.1 := by
  rw [statusPayload_eq]
  exact leValue_field (statusFields_adjacent s)

theorem healthPayload_length (s : State) : (healthPayload s).length = 67 := by
  simp [healthPayload_eq, fieldBytes_length, healthFields]

theorem healthPayload_field (s : State) :
    ∀ f ∈ healthFields s, leValue (((healthPayload s).drop f.1).take f.2.1) = f.2.2 % 256 ^ f.2.1 := by
  rw [healthPayload_eq]
  exact leValue_field (healthFields_adjacent s)

theorem identityPayload_length (s : State) : (identityPayload s).length = 21 := by
  simp [identityPayload_eq, fieldBytes_length, identityFields]

theorem identityPayload_field (s : State) :
    ∀ f ∈ identityFields s, leValue (((identityPayload s).drop f.1).take f.2.1) = f.2.2 % 256 ^ f.2.1 := by
  rw [identityPayload_eq]
  exact leValue_field (identityFields_adjacent s)

/-! ### Queries and table reads (R184) -/

section
variable {s : State} (hr : s.unit.state ≠ .reset)
include hr

/-- A request that reads and passes its checks: the results become the pending response (R184). -/
theorem judge_answers {tag : Byte} {params : List Byte} {len : Nat} {permitted argsOk : State → Bool}
    {results : State → List Byte} (hl : params.length = len) (hp : permitted (beginHappening s) = true)
    (ha : argsOk (beginHappening s) = true) :
    judge tag params len permitted argsOk (answerOk tag results) (beginHappening s) =
      s.withResponse tag .ok (results (beginHappening s)) := judge_run (s := beginHappening s) hr hl hp ha

theorem exec_getStatus (tag : Byte) :
    exec (.getStatus tag []) s = .next (s.withResponse tag .ok (statusPayload s)) :=
  congrArg Host.Outcome.next (judge_answers hr rfl rfl rfl)

theorem exec_getHealth (tag : Byte) :
    exec (.getHealth tag []) s = .next (s.withResponse tag .ok (healthPayload s)) :=
  congrArg Host.Outcome.next (judge_answers hr rfl rfl rfl)

theorem exec_getIdentity (tag : Byte) :
    exec (.getIdentity tag []) s = .next (s.withResponse tag .ok (identityPayload s)) :=
  congrArg Host.Outcome.next (judge_answers hr rfl rfl rfl)

theorem exec_readEvents (tag : Byte) :
    exec (.readEvents tag []) s = .next (s.withResponse tag .ok (eventsPayload s)) :=
  congrArg Host.Outcome.next (judge_answers hr rfl rfl rfl)

end

section
variable {α : Type} {tag : Byte} {params : List Byte} {len : Nat} {permitted : State → Bool}
  {lookup : State → Option α} {payload : State → α → List Byte} {s : State} (hr : s.unit.state ≠ .reset)
  (hl : params.length = len) (hp : permitted (beginHappening s) = true)
include hr hl hp

/-- A read of an entry that exists answers with it (R184). -/
theorem judge_found {x : α} (h : lookup (beginHappening s) = some x) :
    judge tag params len permitted (fun t => (lookup t).isSome)
      (answerOk tag fun t => ((lookup t).map (payload t)).getD []) (beginHappening s) =
    s.withResponse tag .ok (payload (beginHappening s) x) := by
  rw [judge_answers hr hl hp (by simp [h]), h]
  rfl

theorem judge_absent {run : State → State} (h : lookup (beginHappening s) = none) :
    judge tag params len permitted (fun t => (lookup t).isSome) run (beginHappening s) =
    s.withResponse tag .badArg [] := by
  rw [judge_badArg (s := beginHappening s) hr hl hp (by simp [h]), respond_beginHappening]

end

/-- The command reads an entry of one of the tables that R20 loads. -/
def ReadsTable {α : Type} (c : Instr) (tag b0 b1 : Byte) (lookup : State → Option α)
    (payload : State → α → List Byte) : Prop :=
  ∀ s, exec c s = .next (judge tag [b0, b1] 2 State.tablesLoaded (fun t => (lookup t).isSome)
    (answerOk tag fun t => ((lookup t).map (payload t)).getD []) (beginHappening s))

section
variable {α : Type} {c : Instr} {tag b0 b1 : Byte} {lookup : State → Option α} {payload : State → α → List Byte}
  {s : State} (hc : ReadsTable c tag b0 b1 lookup payload) (hr : s.unit.state ≠ .reset)
include hc hr

theorem ReadsTable.unloaded (h : s.map.loaded = false) : exec c s = .next (s.withResponse tag .badState []) :=
  (hc s).trans (congrArg Host.Outcome.next
    ((judge_badState (s := beginHappening s) (len := 2) hr rfl h).trans (respond_beginHappening tag .badState s)))

theorem ReadsTable.found (h : s.map.loaded = true) {x : α} (hx : lookup (beginHappening s) = some x) :
    exec c s = .next (s.withResponse tag .ok (payload (beginHappening s) x)) :=
  (hc s).trans (congrArg Host.Outcome.next (judge_found hr rfl h hx))

theorem ReadsTable.absent (h : s.map.loaded = true) (hx : lookup (beginHappening s) = none) :
    exec c s = .next (s.withResponse tag .badArg []) :=
  (hc s).trans (congrArg Host.Outcome.next (judge_absent hr rfl h hx))

end

section
variable (tag b0 b1 : Byte) {n : Nat} (hn : n = b0.toNat + 256 * b1.toNat)
include hn

theorem readMapEntry_readsTable : ReadsTable (.readMapEntry tag [b0, b1]) tag b0 b1 (fun t => t.map.entries[n]?)
    (fun _ => mapEntryPayload n) := by
  rw [hn, ← logicalParam_eq]
  exact fun _ => rfl

theorem readFrameRecord_readsTable : ReadsTable (.readFrameRecord tag [b0, b1]) tag b0 b1
    (fun t => t.map.frames[n]?) (fun _ => frameRecordPayload n) := by
  rw [hn, ← logicalParam_eq]
  exact fun _ => rfl

theorem readPoolEntry_readsTable : ReadsTable (.readPoolEntry tag [b0, b1]) tag b0 b1 (fun t => t.map.pool[n]?)
    (fun t f => poolEntryPayload n f (wearIn t.map.frames f)) := by
  rw [hn, ← logicalParam_eq]
  exact fun _ => rfl

end

/-- GET_SETTING is judged by whether the setting exists (R174). -/
theorem exec_getSetting (tag b0 : Byte) (s : State) : exec (.getSetting tag [b0]) s =
    .next (judge tag [b0] 1 always (fun t => (t.time.active.get b0.toNat).isSome)
      (answerOk tag fun t => settingPayload b0.toNat ((t.time.active.get b0.toNat).getD 0)
        ((t.time.staged.get b0.toNat).getD 0)) (beginHappening s)) := by
  have hid : paramField [b0] 0 1 = b0.toNat := by simp [paramField, leValue]
  rw [← hid]
  rfl

section
variable {tag b0 : Byte} {s : State} (hr : s.unit.state ≠ .reset)
include hr

theorem exec_getSetting_found {a g : Nat} (ha : s.time.active.get b0.toNat = some a)
    (hg : s.time.staged.get b0.toNat = some g) :
    exec (.getSetting tag [b0]) s = .next (s.withResponse tag .ok (settingPayload b0.toNat a g)) := by
  have ha : (beginHappening s).time.active.get b0.toNat = some a := ha
  have hg : (beginHappening s).time.staged.get b0.toNat = some g := hg
  refine (exec_getSetting tag b0 s).trans (congrArg Host.Outcome.next ((judge_answers hr rfl rfl ?_).trans ?_))
  · rw [ha]
    rfl
  · rw [ha, hg]
    rfl

theorem exec_getSetting_absent (h : s.time.active.get b0.toNat = none) :
    exec (.getSetting tag [b0]) s = .next (s.withResponse tag .badArg []) :=
  (exec_getSetting tag b0 s).trans (congrArg Host.Outcome.next
    (judge_absent (lookup := fun t => t.time.active.get b0.toNat) hr rfl rfl h))

end

/-- Only the ten settings of Table 10.2 exist. -/
theorem Settings.get_none (x : Settings) {id : Nat} (h : id = 0 ∨ 10 < id) : x.get id = none := by
  unfold Settings.get
  split
  case h_11 => rfl
  all_goals omega

/-- Settles O48: each payload is its fields laid end to end, and each read finds its entry or none. -/
theorem queriesAndTableReadsChangeNothing : Obligations.QueriesAndTableReadsChangeNothing := by
  refine ⟨fun tag s hr => ⟨exec_getStatus hr tag, ?_, ?_, exec_getHealth hr tag, ?_, ?_, exec_getIdentity hr tag, ?_, ?_,
    exec_readEvents hr tag, ?_⟩, fun tag b0 b1 s hr n hn => ?_⟩
  · exact statusPayload_length s
  · exact statusPayload_field s
  · exact healthPayload_length s
  · exact healthPayload_field s
  · exact identityPayload_length s
  · exact identityPayload_field s
  · simp
  · have hentry := readMapEntry_readsTable tag b0 b1 hn
    have hframe := readFrameRecord_readsTable tag b0 b1 hn
    have hpool := readPoolEntry_readsTable tag b0 b1 hn
    refine ⟨fun h => ?_, fun h => ⟨fun _ => hentry.found hr h, fun hle => hentry.absent hr h (List.getElem?_eq_none hle),
      fun _ => hframe.found hr h, fun hle => hframe.absent hr h (List.getElem?_eq_none hle),
      fun _ => hpool.found hr h, fun hle => hpool.absent hr h (List.getElem?_eq_none hle)⟩, fun a g ha hg => ?_,
      fun hid => ?_⟩
    · simp only [List.forall_mem_cons]
      exact ⟨hentry.unloaded hr h, hframe.unloaded hr h, hpool.unloaded hr h, nofun⟩
    · exact exec_getSetting_found hr ha hg
    · exact exec_getSetting_absent hr (Settings.get_none _ hid)

end Sys2Proof.Machine
end

section
/-! SUPPORT. What leaves at the host port: whatever an operation sends, a response other than DATA carries 64 zero bytes (R188). A
lemma `f_outPlain` follows the definition of `f`; operations that send nothing are passed over by the lemmas of Laws/Frames.lean. -/

namespace Sys2Proof.Machine

set_option Elab.async false

/-- Every response other than DATA that has left in the happening carries 64 zero bytes. -/
def Outputs.Plain (o : Outputs) : Prop := ∀ r ∈ o.host, r.code ≠ .data → r.data = zeroLine

variable {s t : State}

theorem Outputs.plain_none : Outputs.none.Plain := by simp [Outputs.Plain, Outputs.none]

/-- Only the responses of the host port count. -/
theorem Outputs.plain_of_host {o p : Outputs} (h : o.host = p.host) : o.Plain ↔ p.Plain := by
  rw [Outputs.Plain, Outputs.Plain, h]

theorem foldl_outPlain {α : Type} {f : State → α → State} (h : ∀ u a, (f u a).out.Plain ↔ u.out.Plain) (l : List α)
    (s : State) : (l.foldl f s).out.Plain ↔ s.out.Plain :=
  iff_of_eq (keep_foldl (fun u => u.out.Plain) f (fun u a => propext (h u a)) l s)

/-! ### The Host Port's responses, and attempts sent to the medium (R63, R67 to R70, R188) -/

@[simp] theorem sendHost_outPlain (tag : BitVec 5) (code : HostCode) (data : LineData) (s : State) :
    (sendHost tag code data s).out.Plain ↔ s.out.Plain := by
  have hsent : code ≠ .data → (if code = .data then data else zeroLine) = zeroLine := fun h => if_neg h
  rw [Outputs.Plain, sendHost_out, List.forall_mem_append, List.forall_mem_singleton]
  exact and_iff_left hsent

@[simp] theorem sendAttempt_outPlain (op : InFlight) (s : State) : (sendAttempt op s).out.Plain ↔ s.out.Plain :=
  Outputs.plain_of_host rfl

theorem grantOne_outPlain (h : grantOne s = some t) : t.out.Plain ↔ s.out.Plain := by
  unfold grantOne at h
  split at h
  · contradiction
  · split at h
    · cases h
      simp
    · contradiction

@[simp] theorem grantUpTo_outPlain (n : Nat) (s : State) : (grantUpTo n s).out.Plain ↔ s.out.Plain := by
  induction n generalizing s with
  | zero => rfl
  | succ n ih =>
    unfold grantUpTo
    split
    · exact (ih _).trans (grantOne_outPlain ‹_›)
    · rfl

@[simp] theorem grantAll_outPlain (s : State) : (grantAll s).out.Plain ↔ s.out.Plain := by simp [grantAll]

@[simp] theorem retryAttempt_outPlain (op : InFlight) (s : State) : (retryAttempt op s).out.Plain ↔ s.out.Plain := by
  simp [retryAttempt]

/-! ### Answers (R50 to R53) -/

@[simp] theorem answer_outPlain (tag : BitVec 5) (code : HostCode) (data : LineData) (s : State) :
    (answer tag code data s).out.Plain ↔ s.out.Plain := by simp [answer]

@[simp] theorem releaseHeld_outPlain (s : State) : (releaseHeld s).out.Plain ↔ s.out.Plain :=
  foldl_outPlain (fun u _ => answer_outPlain _ _ _ u) _ s

@[simp] theorem answerRead_outPlain (tag : BitVec 5) (code : HostCode) (data : LineData) (s : State) :
    (answerRead tag code data s).out.Plain ↔ s.out.Plain := by simp [answerRead]

@[simp] theorem serveRead_outPlain (tag : BitVec 5) (line : Nat) (s : State) :
    (serveRead tag line s).out.Plain ↔ s.out.Plain := by
  unfold serveRead
  split
  · simp
  split
  · simp
  split <;> simp

@[simp] theorem decideAfterLoss_outPlain (tag : BitVec 5) (line : Nat) (s : State) :
    (decideAfterLoss tag line s).out.Plain ↔ s.out.Plain := by
  unfold decideAfterLoss
  split <;> simp

@[simp] theorem endLossWaits_outPlain (line : Nat) (s : State) : (endLossWaits line s).out.Plain ↔ s.out.Plain :=
  foldl_outPlain (fun u _ => decideAfterLoss_outPlain _ _ u) _ s

@[simp] theorem returnRead_outPlain (tag : BitVec 5) (line : Nat) (outcome : ReadOutcome LineData) (s : State) :
    (returnRead tag line outcome s).out.Plain ↔ s.out.Plain := by
  unfold returnRead
  split
  · simp
  split
  · simp
  split
  · simp
  split <;> simp

/-! ### Writes (R50, R55 to R58) -/

@[simp] theorem finishWrite_outPlain (tag : BitVec 5) (line : Nat) (s : State) :
    (finishWrite tag line s).out.Plain ↔ s.out.Plain := by
  unfold finishWrite
  split <;> simp

@[simp] theorem acceptWrite_outPlain (e : TagEntry) (s : State) : (acceptWrite e s).out.Plain ↔ s.out.Plain := by
  unfold acceptWrite
  dsimp only
  split <;> simp

@[simp] theorem takeRequest_outPlain (e : TagEntry) (s : State) : (takeRequest e s).out.Plain ↔ s.out.Plain := by
  unfold takeRequest
  split
  · simp
  · split <;> simp
  · rfl

@[simp] theorem takeLine_outPlain (line n : Nat) (s : State) : (takeLine line n s).out.Plain ↔ s.out.Plain := by
  induction n generalizing s with
  | zero => rfl
  | succ n ih =>
    unfold takeLine
    split
    · split
      · exact (ih _).trans (takeRequest_outPlain _ s)
      · rfl
    · rfl

theorem waitQueueTake?_outPlain (h : waitQueueTake? s = some t) : t.out.Plain ↔ s.out.Plain := by
  unfold waitQueueTake? at h
  split at h
  · split at h
    · cases h
      simp
    · contradiction
  · contradiction

/-! ### PERSIST (R59, R60) -/

@[simp] theorem takePersist_outPlain (tag : BitVec 5) (s : State) : (takePersist tag s).out.Plain ↔ s.out.Plain := by
  unfold takePersist
  dsimp only
  split <;> simp

theorem persistTake?_outPlain (h : persistTake? s = some t) : t.out.Plain ↔ s.out.Plain := by
  unfold persistTake? at h
  split at h
  · contradiction
  split at h
  · split at h
    · cases h
      simp
    · contradiction
  · contradiction

theorem persistDone?_outPlain (h : persistDone? s = some t) : t.out.Plain ↔ s.out.Plain := by
  unfold persistDone? at h
  split at h
  · contradiction
  split at h
  · split at h
    · cases h
      simp
    · contradiction
  · contradiction

/-! ### Arrival (R46, R47, R49) -/

@[simp] theorem arriveRead_outPlain (tag : BitVec 5) (line : Nat) (s : State) :
    (arriveRead tag line s).out.Plain ↔ s.out.Plain := by
  unfold arriveRead
  dsimp only
  split <;> simp

@[simp] theorem arriveWrite_outPlain (tag : BitVec 5) (line : Nat) (mask : Flags64) (data : LineData) (s : State) :
    (arriveWrite tag line mask data s).out.Plain ↔ s.out.Plain := by
  unfold arriveWrite
  dsimp only
  split
  · simp
  split <;> simp

@[simp] theorem arrivePersist_outPlain (tag : BitVec 5) (line : Nat) (s : State) :
    (arrivePersist tag line s).out.Plain ↔ s.out.Plain := by
  unfold arrivePersist
  dsimp only
  split <;> simp

theorem arrivalCheck_outPlain {tag : BitVec 5} (h : arrivalCheck tag s = some t) : t.out.Plain ↔ s.out.Plain := by
  unfold arrivalCheck at h
  split at h
  · cases h
    rfl
  split at h
  · cases h
    simp
  split at h
  · cases h
    simp
  · contradiction

@[simp] theorem hostReadArrives_outPlain (tag : BitVec 5) (line : Nat) (s : State) :
    (hostReadArrives tag line s).out.Plain ↔ s.out.Plain := by
  unfold hostReadArrives
  split
  · exact arrivalCheck_outPlain ‹_›
  split <;> simp

@[simp] theorem hostWriteArrives_outPlain (tag : BitVec 5) (line : Nat) (mask : Flags64) (data : LineData) (s : State) :
    (hostWriteArrives tag line mask data s).out.Plain ↔ s.out.Plain := by
  unfold hostWriteArrives
  split
  · exact arrivalCheck_outPlain ‹_›
  split
  · simp
  split <;> simp

@[simp] theorem hostPersistArrives_outPlain (tag : BitVec 5) (line : Nat) (s : State) :
    (hostPersistArrives tag line s).out.Plain ↔ s.out.Plain := by
  unfold hostPersistArrives
  split
  · exact arrivalCheck_outPlain ‹_›
  · simp

/-! ### Changes of unit state (R48, R142, R143) -/

@[simp] theorem refuseWaiting_outPlain (s : State) : (refuseWaiting s).out.Plain ↔ s.out.Plain :=
  (foldl_outPlain (fun u e => takeRequest_outPlain e u) _ _).trans (foldl_outPlain (fun u _ => answer_outPlain _ _ _ u) _ s)

@[simp] theorem answerAllFailed_outPlain (s : State) : (answerAllFailed s).out.Plain ↔ s.out.Plain :=
  foldl_outPlain (fun u _ => sendHost_outPlain _ _ _ u) _ s

@[simp] theorem enterFailed_outPlain (cause : FailCause) (s : State) :
    (enterFailed cause s).out.Plain ↔ s.out.Plain := by
  unfold enterFailed
  split
  · rfl
  · simp

@[simp] theorem setLatch_outPlain (s : State) : (setLatch s).out.Plain ↔ s.out.Plain := by
  unfold setLatch
  dsimp only
  split <;> simp

@[simp] theorem hardReset_outPlain (s : State) : (hardReset s).out.Plain ↔ s.out.Plain := Outputs.plain_of_host rfl

@[simp] theorem volatileReset_outPlain (s : State) : (volatileReset s).out.Plain ↔ s.out.Plain := by
  simp [volatileReset]

@[simp] theorem closingEnds_outPlain (s : State) : (closingEnds s).out.Plain ↔ s.out.Plain := by
  unfold closingEnds
  split <;> simp

@[simp] theorem shutdownDurable_outPlain (s : State) : (shutdownDurable s).out.Plain ↔ s.out.Plain := by
  unfold shutdownDurable
  split
  · simp
  split
  · simp
  · rfl

@[simp] theorem enterDrainLock_outPlain (s : State) : (enterDrainLock s).out.Plain ↔ s.out.Plain := by
  simp [enterDrainLock]

@[simp] theorem enterClosing_outPlain (restart : Bool) (s : State) :
    (enterClosing restart s).out.Plain ↔ s.out.Plain := by simp [enterClosing]

@[simp] theorem warningAsserted_outPlain (s : State) : (warningAsserted s).out.Plain ↔ s.out.Plain := by
  unfold warningAsserted
  split <;> simp

@[simp] theorem assertHoldUp_outPlain (s : State) : (assertHoldUp s).out.Plain ↔ s.out.Plain := by
  unfold assertHoldUp
  split <;> simp

@[simp] theorem assertReset_outPlain (s : State) : (assertReset s).out.Plain ↔ s.out.Plain := by
  unfold assertReset
  split <;> simp

@[simp] theorem restartNow_outPlain (tag : Byte) (s : State) : (restartNow tag s).out.Plain ↔ s.out.Plain := by
  unfold restartNow
  split <;> simp

/-! ### Migration Engine (R88 to R94, R101) -/

@[simp] theorem spareExhausted_outPlain (m : Migration) (s : State) : (spareExhausted m s).out.Plain ↔ s.out.Plain := by
  simp [spareExhausted]

@[simp] theorem askTarget_outPlain (m : Migration) (s : State) : (askTarget m s).out.Plain ↔ s.out.Plain := by
  unfold askTarget
  split
  · simp
  · split <;> simp

theorem quiesceEnd?_outPlain (h : quiesceEnd? s = some t) : t.out.Plain ↔ s.out.Plain := by
  unfold quiesceEnd? at h
  split at h
  · split at h
    · cases h
      simp
    · contradiction
  · contradiction

@[simp] theorem copyWriteOutcome_outPlain (m : Migration) (report : WriteReport) (s : State) :
    (copyWriteOutcome m report s).out.Plain ↔ s.out.Plain := by
  unfold copyWriteOutcome
  split
  · split <;> simp
  · dsimp only
    split <;> simp

@[simp] theorem engineWrite_outPlain (report : WriteReport) (s : State) :
    (engineWrite report s).out.Plain ↔ s.out.Plain := by
  unfold engineWrite
  split
  · split <;> simp
  · rfl

/-! ### Records and checkpoints (R124, R125, R132; Table 7.2) -/

@[simp] theorem commitCheckpoint_outPlain (c : Checkpoint) (s : State) :
    (commitCheckpoint c s).out.Plain ↔ s.out.Plain := by
  unfold commitCheckpoint
  dsimp only
  split <;> simp

@[simp] theorem checkpointOutcome_outPlain (report : WriteReport) (s : State) :
    (checkpointOutcome report s).out.Plain ↔ s.out.Plain := by
  unfold checkpointOutcome
  split
  · split
    · simp
    · simp
    · simp
    · rfl
  · rfl

@[simp] theorem drainRecordDurable_outPlain (d : Drain) (s : State) :
    (drainRecordDurable d s).out.Plain ↔ s.out.Plain := by
  unfold drainRecordDurable
  dsimp only
  split <;> simp

@[simp] theorem recordEffect_outPlain (c : Creator) (r : JournalRecord) (s : State) :
    (recordEffect c r s).out.Plain ↔ s.out.Plain := by
  unfold recordEffect
  split
  · simp
  · split <;> simp
  · simp
  · simp
  · simp
  · rfl

@[simp] theorem recordOutcome_outPlain (report : WriteReport) (s : State) :
    (recordOutcome report s).out.Plain ↔ s.out.Plain := by
  unfold recordOutcome
  dsimp only
  split <;> simp

/-! ### FORMAT and recovery (R147 to R153) -/

@[simp] theorem formatWriteOutcome_outPlain (w : FormatWork) (report : WriteReport) (s : State) :
    (formatWriteOutcome w report s).out.Plain ↔ s.out.Plain := by
  unfold formatWriteOutcome
  split
  · simp
  · dsimp only
    split <;> simp

@[simp] theorem formatWriteArrives_outPlain (id : AttemptId) (report : WriteReport) (s : State) :
    (formatWriteArrives id report s).out.Plain ↔ s.out.Plain := by
  unfold formatWriteArrives
  split <;> simp

@[simp] theorem readImage_outPlain (w : RecoveryWork) (s : State) : (readImage w s).out.Plain ↔ s.out.Plain := by
  unfold readImage
  split <;> simp

@[simp] theorem recoverHeaderB_outPlain (w : RecoveryWork) (delivered : Option MetaLine) (s : State) :
    (recoverHeaderB w delivered s).out.Plain ↔ s.out.Plain := by simp [recoverHeaderB]

@[simp] theorem rejectArea_outPlain (inconsistent : Bool) (w : RecoveryWork) (s : State) :
    (rejectArea inconsistent w s).out.Plain ↔ s.out.Plain := by simp [rejectArea]

@[simp] theorem judgeImage_outPlain (area : Area) (h : CheckpointHeader) (g : GeometryRecord) (x : ImageWork)
    (w : RecoveryWork) (s : State) : (judgeImage area h g x w s).out.Plain ↔ s.out.Plain := by
  unfold judgeImage
  split
  · simp
  · dsimp only
    split <;> simp

@[simp] theorem recoverImageLine_outPlain (x : ImageWork) (w : RecoveryWork) (delivered : Option MetaLine) (s : State) :
    (recoverImageLine x w delivered s).out.Plain ↔ s.out.Plain := by
  unfold recoverImageLine
  split
  · dsimp only
    split
    · simp
    · split <;> simp
  · simp

@[simp] theorem recoveryOutcome_outPlain (w : RecoveryWork) (delivered : Option MetaLine) (s : State) :
    (recoveryOutcome w delivered s).out.Plain ↔ s.out.Plain := by
  unfold recoveryOutcome
  split <;> simp

/-! ### Host reads returned, and deadlines (R53, R75 to R77) -/

@[simp] theorem hostReadOutcome_outPlain (op : InFlight) (o : ReadOutcome LineData) (s : State) :
    (hostReadOutcome op o s).out.Plain ↔ s.out.Plain := by
  unfold hostReadOutcome
  dsimp only
  cases o with
  | clean d =>
    split
    · split <;> simp
    · simp
  | corrected k d =>
    split
    · split <;> simp
    · simp
  | uncorrectable =>
    split
    · split <;> simp
    · simp

@[simp] theorem secondTimeout_outPlain (op : InFlight) (s : State) : (secondTimeout op s).out.Plain ↔ s.out.Plain := by
  simp [secondTimeout]

@[simp] theorem attemptTimesOut_outPlain (op : InFlight) (s : State) :
    (attemptTimesOut op s).out.Plain ↔ s.out.Plain := by
  unfold attemptTimesOut
  split <;> simp

end Sys2Proof.Machine
end

section
/-! SUPPORT. Every command: what leaves at the host port in its happening (R188; Tables 11.12, 11.13). -/

namespace Sys2Proof.Machine

set_option Elab.async false

variable {s t : State} {c : Instr}

/-! ### Happenings -/

theorem followUp_outPlain {e : State → Option State} (he : e ∈ followUps) (h : e s = some t) :
    t.out.Plain ↔ s.out.Plain := by
  fin_cases he
  · simp [abortComplete?_frame s h]
  · simp [migrationSwitch?_frame s h]
  · simp [creatorJoin?_frame s h]
  · simp [flushDone?_frame s h]
  · exact persistDone?_outPlain h
  · exact waitQueueTake?_outPlain h
  · exact persistTake?_outPlain h
  · simp [migrationTake?_frame s h]
  · exact quiesceEnd?_outPlain h
  · simp [lateCopyStart?_frame s h]
  · simp [drainLockEmptyingEnd?_frame s h]
  · simp [closingEmptyingEnd?_frame s h]
  · simp [closingCheckpointStart?_frame s h]
  · simp [imageFix?_frame s h]
  · simp [recordIssue?_frame s h]
  · simp [drainIssue?_frame s h]

theorem settle_outPlain (h : s.out.Plain) : (settle s).out.Plain := by
  refine settle_induct (fun u => u.out.Plain) (fun u v hu hv => ?_) (fun u => (grantAll_outPlain u).mpr) s h
  obtain ⟨e, he, hmade⟩ := List.exists_of_findSome?_eq_some hv
  exact (followUp_outPlain he hmade).mpr hu

/-- A happening begins with nothing sent (log entry 4). -/
theorem happening_outPlain {body : State → State} (hbody : ∀ u, (body u).out.Plain ↔ u.out.Plain) :
    (happening body s).out.Plain := settle_outPlain ((hbody _).mpr Outputs.plain_none)

/-- A follow-up event commanded by name (log entry 3). -/
theorem performed_outPlain {e : State → Option State} (he : e ∈ followUps := by simp [followUps]) :
    (happening (perform e) s).out.Plain := by
  refine happening_outPlain fun u => ?_
  unfold perform
  cases h : e u with
  | none => rfl
  | some v => exact followUp_outPlain he h

theorem judge_outPlain {tag : Byte} {params : List Byte} {len : Nat} {permitted argsOk : State → Bool}
    {run : State → State} (hrun : (run s).out.Plain ↔ s.out.Plain) :
    (judge tag params len permitted argsOk run s).out.Plain ↔ s.out.Plain := by
  rcases judge_cases tag params len permitted argsOk run s with
    ⟨-, he⟩ | ⟨-, he⟩ | ⟨-, -, he⟩ | ⟨-, -, -, he⟩ | ⟨-, -, -, he⟩ <;> rw [he]
  · simp
  · simp
  · simp
  · exact hrun

/-- A request executed in a happening. -/
theorem judged_outPlain {tag : Byte} {params : List Byte} {len : Nat} {permitted argsOk : State → Bool}
    {run : State → State} (hrun : ∀ u, (run u).out.Plain ↔ u.out.Plain) :
    (happening (judge tag params len permitted argsOk run) s).out.Plain :=
  happening_outPlain fun u => judge_outPlain (hrun u)

/-- A request whose happening is its execution alone (log entry 1). -/
theorem judgeBegun_outPlain {tag : Byte} {params : List Byte} {len : Nat} {permitted argsOk : State → Bool}
    {run : State → State} (hrun : ∀ u, (run u).out.Plain ↔ u.out.Plain) :
    (judge tag params len permitted argsOk run (beginHappening s)).out.Plain :=
  (judge_outPlain (hrun _)).mpr Outputs.plain_none

/-! ### The commands whose effect splits -/

theorem setFence_outPlain {tag : Byte} {params : List Byte} :
    (setFence tag params s).out.Plain ↔ s.out.Plain := by
  unfold setFence
  dsimp only
  split
  · exact judge_outPlain (by simp)
  · exact judge_outPlain (by simp)

theorem readTransfer_outPlain (n : Nat) (s : State) : (readTransfer n s).out.Plain ↔ s.out.Plain := by
  unfold readTransfer
  dsimp only
  split <;> exact Outputs.plain_of_host rfl

/-- A transfer that is answered with a status alone, or not at all (R183). -/
theorem answeredUnless_outPlain {p : Prop} [Decidable p] {tag : Byte} {status : Status} :
    (if p then beginHappening s else respond tag status [] (beginHappening s)).out.Plain := by
  split
  · exact Outputs.plain_none
  · exact Outputs.plain_none

/-! ### Every command -/

/-- From a state with nothing sent, what a command ends in. -/
theorem plain_of_next {v : State} (h : (Host.Outcome.next v : Host.Outcome State Fault Refusal) = .next t)
    (hv : v.out.Plain) : t.out.Plain := by
  cases h
  exact hv

theorem exec_outPlain (c : Instr) (h : exec c s = .next t) : t.out.Plain := by
  cases c with
  | resetAssert => exact plain_of_next h (happening_outPlain fun u => by simp)
  | resetRelease => exact plain_of_next h (happening_outPlain fun u => by simp)
  | holdUpAssert => exact plain_of_next h (happening_outPlain fun u => by simp)
  | holdUpDeassert => exact plain_of_next h (happening_outPlain fun u => by simp)
  | sweepBoundary => exact plain_of_next h (happening_outPlain fun u => by split <;> simp)
  | drainAgeReached => exact plain_of_next h (happening_outPlain fun _ => .rfl)
  | stampAgeClamp => exact plain_of_next h (happening_outPlain fun u => by simp)
  | hostRead => exact plain_of_next h (happening_outPlain fun u => by simp)
  | hostWrite => exact plain_of_next h (happening_outPlain fun u => by simp)
  | hostPersist => exact plain_of_next h (happening_outPlain fun u => by simp)
  | hostUnknownKind => exact plain_of_next h (happening_outPlain fun u => by simp)
  | waitQueueTake => exact plain_of_next h (performed_outPlain)
  | persistTake => exact plain_of_next h (performed_outPlain)
  | persistDone => exact plain_of_next h (performed_outPlain)
  | flushDone => exact plain_of_next h (performed_outPlain)
  | drainIssue => exact plain_of_next h (performed_outPlain)
  | mediaGrant => exact plain_of_next h (happening_outPlain fun u => by simp)
  | attemptTimeout => exact plain_of_next h (happening_outPlain fun u => by split <;> simp)
  | staleCompletionDiscard => exact plain_of_next h (Outputs.plain_none)
  | hostReadReturn => exact plain_of_next h (happening_outPlain fun u => by split <;> simp)
  | fillReadComplete =>
    refine plain_of_next h (happening_outPlain fun u => ?_)
    dsimp only
    split
    · split <;> simp
    · rfl
  | drainWriteComplete =>
    refine plain_of_next h (happening_outPlain fun u => ?_)
    dsimp only
    split
    · split <;> simp
    · rfl
  | copyReadComplete => exact plain_of_next h (happening_outPlain fun u => by dsimp only; split <;> simp)
  | copyWriteComplete => exact plain_of_next h (happening_outPlain fun u => by split <;> simp)
  | recordWriteComplete => exact plain_of_next h (happening_outPlain fun u => by split <;> simp)
  | checkpointLineComplete =>
    refine plain_of_next h (happening_outPlain fun u => ?_)
    dsimp only
    split
    · split <;> simp
    · rfl
  | formatOperationComplete id completion =>
    cases completion with
    | read => exact plain_of_next h (happening_outPlain fun u => by simp)
    | write => exact plain_of_next h (happening_outPlain fun u => by simp)
  | recoveryReadComplete => exact plain_of_next h (happening_outPlain fun u => by dsimp only; split <;> simp)
  | migrationTake => exact plain_of_next h (performed_outPlain)
  | quiesceEnd => exact plain_of_next h (performed_outPlain)
  | migrationSwitch => exact plain_of_next h (performed_outPlain)
  | lateCopyStart => exact plain_of_next h (performed_outPlain)
  | abortComplete => exact plain_of_next h (performed_outPlain)
  | recordWriteIssue => exact plain_of_next h (performed_outPlain)
  | creatorJoinQueue => exact plain_of_next h (performed_outPlain)
  | checkpointImageFix => exact plain_of_next h (performed_outPlain)
  | drainLockEmptyingEnd => exact plain_of_next h (performed_outPlain)
  | closingEmptyingEnd => exact plain_of_next h (performed_outPlain)
  | closingCheckpointStart => exact plain_of_next h (performed_outPlain)
  | responseRead n =>
    refine plain_of_next h ?_
    split
    · exact Outputs.plain_none
    · exact (readTransfer_outPlain n _).mpr Outputs.plain_none
  | unknownCommand => exact plain_of_next h (answeredUnless_outPlain)
  | getStatus => exact plain_of_next h (judgeBegun_outPlain fun _ => .rfl)
  | getHealth => exact plain_of_next h (judgeBegun_outPlain fun _ => .rfl)
  | getIdentity => exact plain_of_next h (judgeBegun_outPlain fun _ => .rfl)
  | readMapEntry => exact plain_of_next h (judgeBegun_outPlain fun _ => .rfl)
  | readFrameRecord => exact plain_of_next h (judgeBegun_outPlain fun _ => .rfl)
  | readPoolEntry => exact plain_of_next h (judgeBegun_outPlain fun _ => .rfl)
  | getSetting => exact plain_of_next h (judgeBegun_outPlain fun _ => .rfl)
  | stageSetting => exact plain_of_next h (judgeBegun_outPlain fun _ => .rfl)
  | commitSettings => exact plain_of_next h (judged_outPlain fun u => by simp)
  | discardStaged => exact plain_of_next h (judgeBegun_outPlain fun _ => .rfl)
  | setFenceVolatile => exact plain_of_next h (happening_outPlain fun _ => setFence_outPlain)
  | setFencePersistent => exact plain_of_next h (happening_outPlain fun _ => setFence_outPlain)
  | flush => exact plain_of_next h (judged_outPlain fun _ => .rfl)
  | requestMigration => exact plain_of_next h (judged_outPlain fun u => by simp)
  | abortMigration => exact plain_of_next h (judged_outPlain fun u => by split <;> simp)
  | checkpointNow => exact plain_of_next h (judged_outPlain fun u => by split <;> simp)
  | prepareOff => exact plain_of_next h (judged_outPlain fun u => by simp)
  | resume => exact plain_of_next h (judged_outPlain fun u => by simp)
  | restart => exact plain_of_next h (judged_outPlain fun u => by simp)
  | format => exact plain_of_next h (judged_outPlain fun u => by simp)
  | readEvents => exact plain_of_next h (judgeBegun_outPlain fun _ => .rfl)
  | clearEvents => exact plain_of_next h (judgeBegun_outPlain fun _ => .rfl)
  | setEventEnable => exact plain_of_next h (judgeBegun_outPlain fun _ => .rfl)
  | requestNotWellFormed => exact plain_of_next h (answeredUnless_outPlain)

/-- Settles O12: no command sends a response that is not plain; the codes are those of Tables 11.12 and 11.13. -/
theorem onlyDataResponsesCarryBytes : Obligations.OnlyDataResponsesCarryBytes := by
  refine ⟨fun c s t h => exec_outPlain c h, fun kind tag line mask data => ⟨?_, ?_, ?_, ?_⟩, rfl, rfl, rfl, rfl, rfl, rfl⟩
  · rintro rfl
    rfl
  · rintro rfl
    rfl
  · rintro rfl
    rfl
  · rintro rfl
    rfl

end Sys2Proof.Machine
end

section
/-! SUPPORT. What every command does to the event enables and the pending response (R157, R182, R183, R186). -/

namespace Sys2Proof.Machine

set_option Elab.async false

/-! ### The changes of the link -/

/-- From s to t the event enables and the pending response stand; event flags may be raised (R185). -/
structure LinkStands (s t : State) : Prop where
  enables : t.link.enables = s.link.enables
  response : t.link.response = s.link.response

/-- What a command does to the event enables and the pending response, from s to t. -/
inductive LinkStep (c : Instr) (s t : State) : Prop where
  | stands (h : LinkStands s t)
  | answers (hc : fromLink c = true) (h : t.link.enables = s.link.enables)
  | enables (hc : ∃ tag params, c = .setEventEnable tag params ∧ t.link.enables = eventMask params)
  | resets (hc : ResetBy c s t) (henables : t.link.enables = 0#17)
      (hresponse : fromLink c = false → c ≠ .resetAssert → t.link.response = s.link.response)

variable {s t u : State} {c : Instr}

theorem LinkStands.refl (s : State) : LinkStands s s := ⟨rfl, rfl⟩

theorem LinkStands.trans (h : LinkStands s t) (k : LinkStands t u) : LinkStands s u :=
  ⟨k.enables.trans h.enables, k.response.trans h.response⟩

/-- An operation that changes neither, by the lemmas of Laws/Frames.lean. -/
theorem LinkStands.kept (henables : t.link.enables = s.link.enables := by simp)
    (hresponse : t.link.response = s.link.response := by simp) : LinkStands s t := ⟨henables, hresponse⟩

/-- A command that leaves the link as it is but for its flags, with the one state its outcome names. -/
theorem LinkStep.same {v : State} (h : (Host.Outcome.next v : Host.Outcome State Fault Refusal) = .next t)
    (hv : LinkStands s v) : LinkStep c s t := by
  cases h
  exact .stands hv

/-- A transfer on the link that leaves the event enables as they are. -/
theorem LinkStep.transfer {v : State} (h : (Host.Outcome.next v : Host.Outcome State Fault Refusal) = .next t)
    (hv : v.link.enables = s.link.enables) (hc : fromLink c = true := by rfl) : LinkStep c s t := by
  cases h
  exact .answers hc hv

/-! ### Happenings -/

theorem settle_linkStands (s : State) : LinkStands s (settle s) := by
  obtain ⟨-, -, henables, hresponse⟩ := settle_frame s
  exact ⟨henables, hresponse⟩

theorem happening_linkStands {body : State → State} (hbody : ∀ u, LinkStands u (body u)) :
    LinkStands s (happening body s) :=
  have hbegun : LinkStands s (body (beginHappening s)) := LinkStands.trans (t := beginHappening s) .kept (hbody _)
  hbegun.trans (settle_linkStands _)

theorem happening_enables (body : State → State) (s : State) :
    (happening body s).link.enables = (body (beginHappening s)).link.enables := (settle_linkStands _).enables

theorem happening_enables_eq {body : State → State} (hbody : ∀ u, (body u).link.enables = u.link.enables) :
    (happening body s).link.enables = s.link.enables := (happening_enables body s).trans (hbody _)

theorem followUp_linkStands {e : State → Option State} (he : e ∈ followUps) (h : e s = some t) : LinkStands s t := by
  fin_cases he
  · constructor <;> simp [abortComplete?_frame s h]
  · constructor <;> simp [migrationSwitch?_frame s h]
  · constructor <;> simp [creatorJoin?_frame s h]
  · constructor <;> simp [flushDone?_frame s h]
  · constructor <;> simp [persistDone?_frame s h]
  · constructor <;> simp [waitQueueTake?_frame s h]
  · constructor <;> simp [persistTake?_frame s h]
  · constructor <;> simp [migrationTake?_frame s h]
  · constructor <;> simp [quiesceEnd?_frame s h]
  · constructor <;> simp [lateCopyStart?_frame s h]
  · constructor <;> simp [drainLockEmptyingEnd?_frame s h]
  · constructor <;> simp [closingEmptyingEnd?_frame s h]
  · constructor <;> simp [closingCheckpointStart?_frame s h]
  · constructor <;> simp [imageFix?_frame s h]
  · constructor <;> simp [recordIssue?_frame s h]
  · constructor <;> simp [drainIssue?_frame s h]

/-- A follow-up event commanded by name (log entry 3). -/
theorem performed_linkStands {e : State → Option State} (he : e ∈ followUps := by simp [followUps]) :
    LinkStands s (happening (perform e) s) := by
  refine happening_linkStands fun u => ?_
  unfold perform
  cases h : e u with
  | none => exact .refl u
  | some v => exact followUp_linkStands he h

section
variable {tag : Byte} {params : List Byte} {len : Nat} {permitted argsOk : State → Bool} {run : State → State}

theorem judge_enables (hrun : (run s).link.enables = s.link.enables) :
    (judge tag params len permitted argsOk run s).link.enables = s.link.enables := by
  rcases judge_cases tag params len permitted argsOk run s with
    ⟨-, he⟩ | ⟨-, he⟩ | ⟨-, -, he⟩ | ⟨-, -, -, he⟩ | ⟨-, -, -, he⟩ <;> rw [he]
  · simp
  · simp
  · simp
  · exact hrun

/-- A request executed in a happening. -/
theorem judged_enables (hrun : ∀ u, (run u).link.enables = u.link.enables) :
    (happening (judge tag params len permitted argsOk run) s).link.enables = s.link.enables :=
  happening_enables_eq fun u => judge_enables (hrun u)

/-- A request whose happening is its execution alone (log entry 1). -/
theorem judgeBegun_enables (hrun : ∀ u, (run u).link.enables = u.link.enables) :
    (judge tag params len permitted argsOk run (beginHappening s)).link.enables = s.link.enables :=
  judge_enables (hrun _)

end

/-! ### The resets (R144, R156, R157) -/

/-- The volatile reset disables every event and leaves the pending response (R157). -/
theorem volatileReset_link (s : State) :
    (volatileReset s).link.enables = 0#17 ∧ (volatileReset s).link.response = s.link.response := by
  simp [volatileReset, hardReset, State.reset]

theorem assertReset_linkStep (h : execResetAssert s = .next t) : LinkStep .resetAssert s t := by
  by_cases hr : s.unit.state = .reset
  · have hsame : assertReset (beginHappening s) = beginHappening s := if_pos hr
    refine .same h ?_
    rw [happening, hsame]
    exact LinkStands.trans (t := beginHappening s) .kept (settle_linkStands _)
  · have hreset : assertReset (beginHappening s) = hardReset (beginHappening s) := if_neg hr
    cases h
    refine .resets (.inl ⟨rfl, hr, ?_⟩) ?_ fun _ hne => absurd rfl hne
    · rw [happening, hreset, settle_state (by simp [hardReset_spec])]
      rfl
    · rw [happening_enables, hreset]
      rfl

/-- RESTART makes the volatile reset at once where no tables are in service (R156). -/
theorem restart_linkStep {tag : Byte} {params : List Byte} (h : execRestart tag params s = .next t) :
    LinkStep (.restart tag params) s t := by
  rcases judge_cases tag params 0 State.mayRestart always (restartNow tag) (beginHappening s) with
    ⟨-, he⟩ | ⟨-, he⟩ | ⟨-, -, he⟩ | ⟨-, -, -, he⟩ | ⟨-, hp, -, he⟩
  case inr.inr.inr.inr =>
    by_cases hrunning : (beginHappening s).running = true
    · refine .transfer h ?_
      rw [happening_enables, he, restartNow, if_pos hrunning]
      simp
    · have hrun : restartNow tag (beginHappening s) = respond tag .accepted [] (volatileReset (beginHappening s)) :=
        if_neg hrunning
      simp only [State.mayRestart, Bool.not_eq_true _ ▸ hrunning, Bool.false_or, Bool.and_eq_true, Bool.or_eq_true,
        decide_eq_true_eq, Bool.not_eq_true'] at hp
      obtain ⟨hs, hoff⟩ := hp
      have hstate : (restartNow tag (beginHappening s)).unit.state = .recovering := by
        rw [hrun]
        simpa using volatileReset_recovers hoff
      cases h
      refine .resets (.inr (.inl ⟨⟨tag, params, rfl⟩, by simpa [or_assoc] using hs, ?_⟩)) ?_ nofun
      · rw [happening, he, settle_state (by simp [hstate]), hstate]
      · rw [happening_enables, he, hrun]
        simpa using (volatileReset_link _).1
  all_goals exact .transfer h (by rw [happening_enables, he]; simp)

/-! ### The completions that end CLOSING (R156, R164, R165) -/

/-- From s to t the link stands, or CLOSING ends with restart pending and the volatile reset is made (R156). -/
def LinkStandsOrRestarts (s t : State) : Prop :=
  LinkStands s t ∨
    (s.unit.state = .closing ∧ s.unit.restartPending = true ∧ t.link.enables = 0#17 ∧
      t.link.response = s.link.response ∧ (t.unit.state = .recovering ∨ (s.unit.holdUp = true ∧ t.unit.state = .safe)))

/-- An operation before it that leaves Unit Control as it is. -/
theorem LinkStandsOrRestarts.after (k : LinkStandsOrRestarts t u) (hunit : t.unit = s.unit) (h : LinkStands s t) :
    LinkStandsOrRestarts s u :=
  k.imp h.trans fun ⟨hclosing, hpending, henables, hresponse, hstate⟩ =>
    ⟨hunit ▸ hclosing, hunit ▸ hpending, henables, hresponse.trans h.response, hunit ▸ hstate⟩

theorem LinkStandsOrRestarts.settled (h : LinkStandsOrRestarts s t) : LinkStandsOrRestarts s (settle t) := by
  obtain ⟨henables, hresponse⟩ := settle_linkStands t
  refine h.imp (fun hstands => hstands.trans ⟨henables, hresponse⟩) ?_
  rintro ⟨hclosing, hpending, hreset, hkept, hstate⟩
  have hsame : (settle t).unit.state = t.unit.state :=
    settle_state (by rcases hstate with h | ⟨-, h⟩ <;> simp [h])
  exact ⟨hclosing, hpending, henables.trans hreset, hresponse.trans hkept, hsame ▸ hstate⟩

theorem LinkStandsOrRestarts.linkStep
    (hc : ∃ id report, c = .recordWriteComplete id report ∨ c = .checkpointLineComplete id report)
    (h : LinkStandsOrRestarts s t) : LinkStep c s t := by
  rcases h with hstands | ⟨hclosing, hpending, henables, hresponse, hstate⟩
  · exact .stands hstands
  · exact .resets (.inr (.inr ⟨hc, hclosing, hpending, hstate⟩)) henables fun _ _ => hresponse

theorem closingEnds_linkStandsOrRestarts (hs : s.unit.state = .closing) : LinkStandsOrRestarts s (closingEnds s) := by
  unfold closingEnds
  split
  · rename_i hpending
    obtain ⟨henables, hresponse⟩ := volatileReset_link s
    refine .inr ⟨hs, hpending, henables, hresponse, ?_⟩
    rw [volatileReset_state]
    cases s.unit.holdUp <;> simp
  · exact .inl .kept

theorem shutdownDurable_linkStandsOrRestarts : LinkStandsOrRestarts s (shutdownDurable s) := by
  unfold shutdownDurable
  split
  · exact .inl .kept
  split
  · exact closingEnds_linkStandsOrRestarts ‹_›
  · exact .inl .kept

theorem recordEffect_linkStandsOrRestarts {k : Creator} {r : JournalRecord} :
    LinkStandsOrRestarts s (recordEffect k r s) := by
  unfold recordEffect
  split
  · exact .inl .kept
  · split <;> exact .inl .kept
  · exact .inl .kept
  · exact .inl .kept
  · exact shutdownDurable_linkStandsOrRestarts
  · exact .inl .kept

theorem recordOutcome_linkStandsOrRestarts {report : WriteReport} :
    LinkStandsOrRestarts s (recordOutcome report s) := by
  unfold recordOutcome
  dsimp only
  split
  · exact recordEffect_linkStandsOrRestarts.after rfl .kept
  · exact .inl .kept

theorem commitCheckpoint_linkStandsOrRestarts {k : Checkpoint} : LinkStandsOrRestarts s (commitCheckpoint k s) := by
  unfold commitCheckpoint
  dsimp only
  split
  · rename_i hs
    simp only [Bool.and_eq_true, decide_eq_true_eq] at hs
    exact (closingEnds_linkStandsOrRestarts hs.2).after rfl .kept
  · exact .inl .kept

theorem checkpointOutcome_linkStandsOrRestarts {report : WriteReport} :
    LinkStandsOrRestarts s (checkpointOutcome report s) := by
  unfold checkpointOutcome
  split
  · split
    · exact .inl .kept
    · exact .inl .kept
    · exact commitCheckpoint_linkStandsOrRestarts
    · exact .inl .kept
  · exact .inl .kept

/-- A write's outcome, as the Media Port sees it, changes neither Unit Control nor the link. -/
theorem LinkStandsOrRestarts.after_write {op : InFlight} {report : WriteReport}
    (k : LinkStandsOrRestarts (writeOutcome op report s) u) : LinkStandsOrRestarts s u :=
  k.after (by simp) .kept

theorem happening_linkStandsOrRestarts {body : State → State} (hbody : ∀ u, LinkStandsOrRestarts u (body u)) :
    LinkStandsOrRestarts s (happening body s) :=
  have hbegun : LinkStandsOrRestarts s (body (beginHappening s)) := (hbody _).after rfl .kept
  hbegun.settled

theorem recordWriteComplete_linkStep {id : AttemptId} {report : WriteReport}
    (h : execRecordWriteComplete id report s = .next t) : LinkStep (.recordWriteComplete id report) s t := by
  cases h
  refine (happening_linkStandsOrRestarts fun u => ?_).linkStep ⟨id, report, .inl rfl⟩
  split
  · exact recordOutcome_linkStandsOrRestarts.after_write
  · exact .inl .kept

theorem checkpointLineComplete_linkStep {id : AttemptId} {report : WriteReport}
    (h : execCheckpointLineComplete id report s = .next t) :
    LinkStep (.checkpointLineComplete id report) s t := by
  cases h
  refine (happening_linkStandsOrRestarts fun u => ?_).linkStep ⟨id, report, .inr rfl⟩
  dsimp only
  split
  · split
    · exact checkpointOutcome_linkStandsOrRestarts.after_write
    · exact .inl .kept
  · exact .inl .kept

/-! ### The commands whose effect splits -/

/-- SET_EVENT_ENABLE executed replaces the whole set (R186). -/
theorem setEventEnable_linkStep {tag : Byte} {params : List Byte} (h : execSetEventEnable tag params s = .next t) :
    LinkStep (.setEventEnable tag params) s t := by
  rcases judge_cases tag params 4 always always
      (fun t => respond tag .ok [] (t.setLink { t.link with enables := eventMask params })) (beginHappening s) with
    ⟨-, he⟩ | ⟨-, he⟩ | ⟨-, -, he⟩ | ⟨-, -, -, he⟩ | ⟨-, -, -, he⟩
  case inr.inr.inr.inr =>
    refine .enables ⟨tag, params, rfl, ?_⟩
    cases h
    rw [he]
    rfl
  all_goals exact .transfer h (by rw [he]; simp)

theorem fillReadComplete_linkStep {id : AttemptId} {stored : Stored}
    (h : execFillReadComplete id stored s = .next t) : LinkStep c s t := by
  refine .same h (happening_linkStands fun u => ?_)
  dsimp only
  split
  · split <;> exact .kept
  · exact .refl u

theorem drainWriteComplete_linkStep {id : AttemptId} {report : WriteReport}
    (h : execDrainWriteComplete id report s = .next t) : LinkStep c s t := by
  refine .same h (happening_linkStands fun u => ?_)
  dsimp only
  split
  · split <;> exact .kept
  · exact .refl u

theorem formatOperationComplete_linkStep {id : AttemptId} {completion : FormatCompletion}
    (h : execFormatOperationComplete id completion s = .next t) : LinkStep c s t := by
  cases completion with
  | read stored => exact .same h (happening_linkStands fun u => .kept)
  | write report => exact .same h (happening_linkStands fun u => .kept)

theorem setFence_enables {tag : Byte} {params : List Byte} :
    (setFence tag params s).link.enables = s.link.enables := by
  unfold setFence
  dsimp only
  split
  · exact judge_enables (by simp)
  · exact judge_enables (by simp)

theorem responseRead_linkStep {n : Nat} (h : execResponseRead n s = .next t) : LinkStep (.responseRead n) s t := by
  refine .transfer h ?_
  split <;> simp

/-- A transfer that is answered with a status alone, or not at all (R183). -/
theorem answeredUnless_enables {p : Prop} [Decidable p] {tag : Byte} {status : Status} :
    (if p then beginHappening s else respond tag status [] (beginHappening s)).link.enables = s.link.enables := by
  split <;> simp

/-! ### Every command -/

theorem exec_linkStep (c : Instr) (h : exec c s = .next t) : LinkStep c s t := by
  cases c with
  | resetAssert => exact assertReset_linkStep h
  | resetRelease => exact .same h (happening_linkStands fun u => .kept)
  | holdUpAssert => exact .same h (happening_linkStands fun u => .kept)
  | holdUpDeassert => exact .same h (happening_linkStands fun u => .kept)
  | sweepBoundary => exact .same h (happening_linkStands fun u => by split <;> exact .kept)
  | drainAgeReached => exact .same h (happening_linkStands .refl)
  | stampAgeClamp => exact .same h (happening_linkStands fun u => .kept)
  | hostRead => exact .same h (happening_linkStands fun u => .kept)
  | hostWrite => exact .same h (happening_linkStands fun u => .kept)
  | hostPersist => exact .same h (happening_linkStands fun u => .kept)
  | hostUnknownKind => exact .same h (happening_linkStands fun u => .kept)
  | waitQueueTake => exact .same h performed_linkStands
  | persistTake => exact .same h performed_linkStands
  | persistDone => exact .same h performed_linkStands
  | flushDone => exact .same h performed_linkStands
  | drainIssue => exact .same h performed_linkStands
  | mediaGrant => exact .same h (happening_linkStands fun u => .kept)
  | attemptTimeout => exact .same h (happening_linkStands fun u => by split <;> exact .kept)
  | staleCompletionDiscard => exact .same h .kept
  | hostReadReturn => exact .same h (happening_linkStands fun u => by split <;> exact .kept)
  | fillReadComplete => exact fillReadComplete_linkStep h
  | drainWriteComplete => exact drainWriteComplete_linkStep h
  | copyReadComplete => exact .same h (happening_linkStands fun u => by dsimp only; split <;> exact .kept)
  | copyWriteComplete => exact .same h (happening_linkStands fun u => by split <;> exact .kept)
  | recordWriteComplete => exact recordWriteComplete_linkStep h
  | checkpointLineComplete => exact checkpointLineComplete_linkStep h
  | formatOperationComplete => exact formatOperationComplete_linkStep h
  | recoveryReadComplete => exact .same h (happening_linkStands fun u => by dsimp only; split <;> exact .kept)
  | migrationTake => exact .same h performed_linkStands
  | quiesceEnd => exact .same h performed_linkStands
  | migrationSwitch => exact .same h performed_linkStands
  | lateCopyStart => exact .same h performed_linkStands
  | abortComplete => exact .same h performed_linkStands
  | recordWriteIssue => exact .same h performed_linkStands
  | creatorJoinQueue => exact .same h performed_linkStands
  | checkpointImageFix => exact .same h performed_linkStands
  | drainLockEmptyingEnd => exact .same h performed_linkStands
  | closingEmptyingEnd => exact .same h performed_linkStands
  | closingCheckpointStart => exact .same h performed_linkStands
  | responseRead => exact responseRead_linkStep h
  | unknownCommand => exact .transfer h answeredUnless_enables
  | getStatus => exact .transfer h (judgeBegun_enables fun _ => rfl)
  | getHealth => exact .transfer h (judgeBegun_enables fun _ => rfl)
  | getIdentity => exact .transfer h (judgeBegun_enables fun _ => rfl)
  | readMapEntry => exact .transfer h (judgeBegun_enables fun _ => rfl)
  | readFrameRecord => exact .transfer h (judgeBegun_enables fun _ => rfl)
  | readPoolEntry => exact .transfer h (judgeBegun_enables fun _ => rfl)
  | getSetting => exact .transfer h (judgeBegun_enables fun _ => rfl)
  | stageSetting => exact .transfer h (judgeBegun_enables fun _ => rfl)
  | commitSettings => exact .transfer h (judged_enables fun u => by simp)
  | discardStaged => exact .transfer h (judgeBegun_enables fun _ => rfl)
  | setFenceVolatile => exact .transfer h (happening_enables_eq fun _ => setFence_enables)
  | setFencePersistent => exact .transfer h (happening_enables_eq fun _ => setFence_enables)
  | flush => exact .transfer h (judged_enables fun _ => rfl)
  | requestMigration => exact .transfer h (judged_enables fun u => by simp)
  | abortMigration => exact .transfer h (judged_enables fun u => by split <;> simp)
  | checkpointNow => exact .transfer h (judged_enables fun u => by split <;> simp)
  | prepareOff => exact .transfer h (judged_enables fun u => by simp)
  | resume => exact .transfer h (judged_enables fun u => by simp)
  | restart => exact restart_linkStep h
  | format => exact .transfer h (judged_enables fun u => by simp)
  | readEvents => exact .transfer h (judgeBegun_enables fun _ => rfl)
  | clearEvents => exact .transfer h (judgeBegun_enables fun _ => rfl)
  | setEventEnable => exact setEventEnable_linkStep h
  | requestNotWellFormed => exact .transfer h answeredUnless_enables

/-- Settles O10: of what a command does to the link, only SET_EVENT_ENABLE and a reset change the enables, and only a
transfer and the assertion of reset the response. -/
theorem linkStateChangesOnlyAsRuled : Obligations.LinkStateChangesOnlyAsRuled := by
  refine ⟨fun c s t h => ?_, fun c s t h hc hne => ?_⟩
  · cases exec_linkStep c h with
    | stands h => exact .inl h.enables
    | answers _ h => exact .inl h
    | enables hc => exact .inr (.inl hc)
    | resets hc henables => exact .inr (.inr ⟨henables, hc⟩)
  · cases exec_linkStep c h with
    | stands h => exact h.response
    | answers hlink => exact absurd hlink (by simp [hc])
    | enables hset =>
      obtain ⟨tag, params, rfl, -⟩ := hset
      exact absurd hc (by simp [fromLink, linkFields])
    | resets _ _ hresponse => exact hresponse hc hne

end Sys2Proof.Machine
end

section
/-! SUPPORT. The queue of waiting commands: a step takes the command at its front, and no command touches the rest (log
entry 2). -/

namespace Sys2Proof.Machine

set_option Elab.async false

variable {s : State}

/-! ### A step with a command waiting -/

/-- Settles O1: of the two branches of a step, a queue with a front takes the first. -/
theorem stepRunsFrontCommand : Obligations.StepRunsFrontCommand := by
  intro c rest s h
  simp only [step, h]

/-! ### Happenings -/

/-- Neither the beginning of a happening nor what follows the command in it touches the queue (log entry 1). -/
theorem happening_pending {body : State → State} (hbody : ∀ u, (body u).pending = u.pending) :
    (happening body s).pending = s.pending := by
  obtain ⟨-, hsettle, -⟩ := settle_frame (body (beginHappening s))
  calc (happening body s).pending
    _ = (body (beginHappening s)).pending := hsettle
    _ = (beginHappening s).pending := hbody _
    _ = s.pending := by simp

/-- A follow-up event commanded by name (log entry 3). -/
theorem performed_pending {e : State → Option State} (he : ∀ {u v}, e u = some v → v.pending = u.pending) :
    (happening (perform e) s).pending = s.pending := by
  refine happening_pending fun u => ?_
  unfold perform
  cases h : e u with
  | none => rfl
  | some v => exact he h

section
variable {tag : Byte} {params : List Byte} {len : Nat} {permitted argsOk : State → Bool} {run : State → State}

theorem judge_pending (hrun : (run s).pending = s.pending) :
    (judge tag params len permitted argsOk run s).pending = s.pending := by
  rcases judge_cases tag params len permitted argsOk run s with
    ⟨-, he⟩ | ⟨-, he⟩ | ⟨-, -, he⟩ | ⟨-, -, -, he⟩ | ⟨-, -, -, he⟩ <;> rw [he]
  · simp
  · simp
  · simp
  · exact hrun

/-- A request executed in a happening. -/
theorem judged_pending (hrun : ∀ u, (run u).pending = u.pending) :
    (happening (judge tag params len permitted argsOk run) s).pending = s.pending :=
  happening_pending fun u => judge_pending (hrun u)

/-- A request whose happening is its execution alone (log entry 1). -/
theorem judgeBegun_pending (hrun : ∀ u, (run u).pending = u.pending) :
    (judge tag params len permitted argsOk run (beginHappening s)).pending = s.pending :=
  (judge_pending (hrun _)).trans (by simp)

end

/-! ### The commands whose effect splits -/

theorem setFence_pending {tag : Byte} {params : List Byte} : (setFence tag params s).pending = s.pending := by
  unfold setFence
  dsimp only
  split
  · exact judge_pending (by simp)
  · exact judge_pending (by simp)

/-- A transfer that in some states has no effect (R182, R183). -/
theorem begunUnless_pending {p : Prop} [Decidable p] {transfer : State → State}
    (htransfer : ∀ u, (transfer u).pending = u.pending) :
    (if p then beginHappening s else transfer (beginHappening s)).pending = s.pending := by
  split
  · simp
  · simp [htransfer]

/-! ### Every command -/

/-- No command is refused or faults, and none touches the queue. -/
theorem exec_pending (c : Instr) (s : State) : ∃ t, exec c s = .next t ∧ t.pending = s.pending := by
  cases c with
  | resetAssert | resetRelease | holdUpAssert | holdUpDeassert => exact ⟨_, rfl, happening_pending fun u => by simp⟩
  | hostRead | hostWrite | hostPersist | hostUnknownKind | mediaGrant | stampAgeClamp =>
    exact ⟨_, rfl, happening_pending fun u => by simp⟩
  | drainAgeReached => exact ⟨_, rfl, happening_pending fun _ => rfl⟩
  | sweepBoundary | attemptTimeout | hostReadReturn | copyWriteComplete | recordWriteComplete =>
    exact ⟨_, rfl, happening_pending fun u => by split <;> simp⟩
  | staleCompletionDiscard => exact ⟨_, rfl, by simp⟩
  | copyReadComplete | recoveryReadComplete =>
    exact ⟨_, rfl, happening_pending fun u => by dsimp only; split <;> simp⟩
  | fillReadComplete | drainWriteComplete | checkpointLineComplete =>
    refine ⟨_, rfl, happening_pending fun u => ?_⟩
    dsimp only
    split
    · split <;> simp
    · rfl
  | formatOperationComplete id completion =>
    refine ⟨_, rfl, happening_pending fun u => ?_⟩
    cases completion with
    | read => simp
    | write => simp
  | abortComplete => exact ⟨_, rfl, performed_pending fun h => by simp [abortComplete?_frame _ h]⟩
  | migrationSwitch => exact ⟨_, rfl, performed_pending fun h => by simp [migrationSwitch?_frame _ h]⟩
  | creatorJoinQueue => exact ⟨_, rfl, performed_pending fun h => by simp [creatorJoin?_frame _ h]⟩
  | flushDone => exact ⟨_, rfl, performed_pending fun h => by simp [flushDone?_frame _ h]⟩
  | persistDone => exact ⟨_, rfl, performed_pending fun h => by simp [persistDone?_frame _ h]⟩
  | waitQueueTake => exact ⟨_, rfl, performed_pending fun h => by simp [waitQueueTake?_frame _ h]⟩
  | persistTake => exact ⟨_, rfl, performed_pending fun h => by simp [persistTake?_frame _ h]⟩
  | migrationTake => exact ⟨_, rfl, performed_pending fun h => by simp [migrationTake?_frame _ h]⟩
  | quiesceEnd => exact ⟨_, rfl, performed_pending fun h => by simp [quiesceEnd?_frame _ h]⟩
  | lateCopyStart => exact ⟨_, rfl, performed_pending fun h => by simp [lateCopyStart?_frame _ h]⟩
  | drainLockEmptyingEnd => exact ⟨_, rfl, performed_pending fun h => by simp [drainLockEmptyingEnd?_frame _ h]⟩
  | closingEmptyingEnd => exact ⟨_, rfl, performed_pending fun h => by simp [closingEmptyingEnd?_frame _ h]⟩
  | closingCheckpointStart => exact ⟨_, rfl, performed_pending fun h => by simp [closingCheckpointStart?_frame _ h]⟩
  | checkpointImageFix => exact ⟨_, rfl, performed_pending fun h => by simp [imageFix?_frame _ h]⟩
  | recordWriteIssue => exact ⟨_, rfl, performed_pending fun h => by simp [recordIssue?_frame _ h]⟩
  | drainIssue => exact ⟨_, rfl, performed_pending fun h => by simp [drainIssue?_frame _ h]⟩
  | responseRead => exact ⟨_, rfl, begunUnless_pending fun u => by simp⟩
  | unknownCommand | requestNotWellFormed => exact ⟨_, rfl, begunUnless_pending fun u => by simp⟩
  | getStatus | getHealth | getIdentity | readMapEntry | readFrameRecord | readPoolEntry | getSetting | readEvents =>
    exact ⟨_, rfl, judgeBegun_pending fun _ => rfl⟩
  | stageSetting | discardStaged | clearEvents | setEventEnable =>
    exact ⟨_, rfl, judgeBegun_pending fun _ => rfl⟩
  | setFenceVolatile | setFencePersistent => exact ⟨_, rfl, happening_pending fun _ => setFence_pending⟩
  | abortMigration | checkpointNow => exact ⟨_, rfl, judged_pending fun u => by split <;> simp⟩
  | commitSettings | flush | requestMigration | prepareOff | resume | restart | format =>
    exact ⟨_, rfl, judged_pending fun u => by simp⟩

/-- Settles O13, command by command (exec_pending). -/
theorem everyCommandAnswersANextState : Obligations.EveryCommandAnswersANextState := exec_pending

end Sys2Proof.Machine
end
